-- ==== Sys2Proof/Word.lean ====
section
/-!
DEFINITION. The bit-vector types of the engine (00_scope.md R8, R12): a byte is 8 bits, a word 16 bits, a request 64 bits.
-/
namespace Sys2Proof

/-- A byte, 8 bits (R8). -/
abbrev Byte := BitVec 8

/-- A data word, 16 bits (R8). -/
abbrev Word := BitVec 16

/-- A host request word, 64 bits (R55). -/
abbrev ReqWord := BitVec 64

/-- Byte `i` of a buffer, with 0x00 beyond its end (the buffers are indexed 0..7 and 0..8, R38). -/
abbrev byteAt {n : Nat} (buf : Vector Byte n) (i : Nat) : Byte := buf[i]?.getD 0#8

end Sys2Proof
end

