-- ==== Sys2Proof/Syntax.lean ====
section
/-!
DEFINITION. The abstract requests: one constructor of `Instr` per row of spec/opcode_table.json, and the names the rows use.
-/
namespace Sys2Proof

/-- The nine chip commands, the "static enumeration" of 43_commands.md R118. -/
inductive Command where
  | init
  | measureAirQuality
  | measureRawSignals
  | getBaseline
  | setBaseline
  | setHumidity
  | selfTest
  | getFeatureSetVersion
  | getSerialId
  deriving DecidableEq, Repr

/-- The decode kinds of a response (42_sequencer.md R107 to R111). -/
inductive DecodeKind where
  | none
  | pair
  | single
  | selfTest
  | serial48
  deriving DecidableEq, Repr

/-- One row of CMDTAB (43_commands.md R118). TX_LEN and RX_LEN follow from `ntx` and `nrx` (30_encoding.md R70). -/
structure Descriptor where
  opcode  : Word
  ntx     : Nat
  nrx     : Nat
  delayMs : Nat
  kind    : DecodeKind
  deriving DecidableEq, Repr

/-- The requests (30_encoding.md R57; 43_commands.md R119 to R127). Operand names are those of the rules. -/
inductive Instr where
  /-- `crc.init` (R75) -/
  | crcInit
  /-- `crc.update a` (R76) -/
  | crcUpdate (a : Byte)
  /-- `crc.gen hi, lo` (R77) -/
  | crcGen (hi lo : Byte)
  /-- `crc.verify hi, lo, e` (R78) -/
  | crcVerify (hi lo e : Byte)
  /-- `link.open` (R85) -/
  | linkOpen
  /-- `link.close` (R86) -/
  | linkClose
  /-- `exec CMD_INIT` (R119) -/
  | cmdInit
  /-- `exec CMD_MEASURE_AIR_QUALITY` (R120) -/
  | cmdMeasureAirQuality
  /-- `exec CMD_MEASURE_RAW_SIGNALS` (R121) -/
  | cmdMeasureRawSignals
  /-- `exec CMD_GET_BASELINE` (R122) -/
  | cmdGetBaseline
  /-- `exec CMD_SET_BASELINE, w0, w1` (R123) -/
  | cmdSetBaseline (p0 p1 : Word)
  /-- `exec CMD_SET_HUMIDITY, w0` (R124) -/
  | cmdSetHumidity (p0 : Word)
  /-- `exec CMD_SELF_TEST` (R125) -/
  | cmdSelfTest
  /-- `exec CMD_GET_FEATURE_SET_VERSION` (R126) -/
  | cmdGetFeatureSetVersion
  /-- `exec CMD_GET_SERIAL_ID` (R127) -/
  | cmdGetSerialId
  /-- `reg.read n` (R114) -/
  | regRead (n : Byte)
  deriving DecidableEq, Repr

end Sys2Proof
end

