-- ==== Sys2Proof/Config.lean ====
section
/-!
DEFINITION. The fixed parameters (00_scope.md R6), the open parameters (R7) and the free draws of the environment
(41_link.md R87, R89, R90; 60_exceptions.md R146).
-/
namespace Sys2Proof

/-- What the world outside the engine can do at one step (00_scope.md R11): HOST offers a request, BUS answers the
operation in progress, TIMEBASE ends the Wait, the platform asserts reset, or nothing happens. -/
inductive EnvInput where
  /-- HOST offers a request word (10_state.md R35). -/
  | offer (req : ReqWord)
  /-- BUS answers the BusBind with ok or fail (R87). -/
  | bindAnswer (ok : Bool)
  /-- BUS answers the BusWrite with a count (R89). -/
  | writeCount (k : Nat)
  /-- TIMEBASE ends the Wait (R146). -/
  | waitEnd
  /-- BUS answers the BusRead with bytes (R90). -/
  | readBytes (bytes : List Byte)
  /-- The reset input is asserted (R153). -/
  | reset
  /-- Nothing happens: for ever, this is the bus hang of R91. -/
  | silent
  deriving DecidableEq, Repr, Inhabited

/-- CRC polynomial (R6). -/
def Config.crcPoly : Byte := 0x31#8

/-- CRC initial value (R6). -/
def Config.crcInitial : Byte := 0xFF#8

/-- The 7-bit I2C target address (R6, R41). -/
def Config.busAddress : BitVec 7 := 0x58#7

/-- `BUS_ID` (R7): which host bus the link binds to. Open: no value is assumed (log 8). -/
opaque Config.busId : Nat

/-- `T_POST_WRITE_MS(c)` (R7) for the write-only commands. Open: no value is assumed (log 9). -/
opaque Config.postWriteMs : Command → Nat

/-- `BASELINE_WRITE_ORDER` (R7): true when the eCO2 baseline is payload word 0. Open, and used by the Facade helper only
(log 10). -/
opaque Config.eco2BaselineFirst : Bool

/-- The environment's free draws: what happens at draw number `n` when the state's own input list is empty. It has no
value in Lean, so a theorem holds whatever the environment does (log 1). -/
opaque Config.freeInput : Nat → EnvInput

end Sys2Proof
end

