-- ==== Sys2Proof/WellFormed.lean ====
section
/-!
DEFINITION. The format check of 42_sequencer.md R96 on a request word, written with the bit masks of 30_encoding.md R56 and
R57, independently of the decoder. The operands of `Instr` have the widths of their fields, so every term of `Instr` is well
formed as syntax; what can be ill formed is a word.
-/
namespace Sys2Proof

/-- The selectors of R57; every other OP is reserved (R67). -/
def ReqWord.selectorListed (w : ReqWord) : Bool :=
  [0x01, 0x02, 0x03, 0x04, 0x10, 0x11, 0x20, 0x30].contains (w >>> 56).toNat

/-- "every reserved field of OP's format is 0" (R56, R96). -/
def ReqWord.reservedZero (w : ReqWord) : Bool :=
  if [0x01, 0x10, 0x11].contains (w >>> 56).toNat then
    w &&& 0x00FFFFFFFFFFFFFF#64 == 0#64
  else if [0x02, 0x03, 0x04, 0x30].contains (w >>> 56).toNat then
    w &&& 0x00FFFFFF000000FF#64 == 0#64
  else
    w &&& 0x0000003F00000000#64 == 0#64

/-- "every operand field OP does not use is 0" (R57, R96): B and C of CRC_UPDATE and REG_READ, C of CRC_GENERATE. -/
def ReqWord.unusedZero (w : ReqWord) : Bool :=
  if [0x02, 0x30].contains (w >>> 56).toNat then
    w &&& 0x0000000000FFFF00#64 == 0#64
  else if (w >>> 56).toNat == 0x03 then
    w &&& 0x000000000000FF00#64 == 0#64
  else
    true

/-- NP, bits 39:38 (R56). -/
def ReqWord.payloadCount (w : ReqWord) : Nat := ((w >>> 38) &&& 3#64).toNat

/-- "NP <= 2" for an EXEC (R96). -/
def ReqWord.payloadCountLegal (w : ReqWord) : Bool :=
  (w >>> 56).toNat != 0x20 || w.payloadCount ≤ 2

/-- "(NP < 1 implies P0 = 0) and (NP < 2 implies P1 = 0)" for an EXEC (R96). -/
def ReqWord.payloadUnusedZero (w : ReqWord) : Bool :=
  (w >>> 56).toNat != 0x20 ||
    ((1 ≤ w.payloadCount || w &&& 0x00000000FFFF0000#64 == 0#64) &&
     (2 ≤ w.payloadCount || w &&& 0x000000000000FFFF#64 == 0#64))

/-- `well_formed(REQ)` of R96. -/
def ReqWord.wellFormed (w : ReqWord) : Bool :=
  w.selectorListed && w.reservedZero && w.unusedZero && w.payloadCountLegal && w.payloadUnusedZero

end Sys2Proof
end

