-- ==== Sys2Proof/Decode.lean ====
section
/-!
DEFINITION. CMDTAB, the decoder of request words, total and rejecting by name, and the encoder (30_encoding.md R55 to R57,
R67 to R71; 43_commands.md R118).
-/
namespace Sys2Proof

/-! ## CMDTAB (43_commands.md R118) -/

/-- The commands in the order of the table. -/
def Command.all : List Command :=
  [.init, .measureAirQuality, .measureRawSignals, .getBaseline, .setBaseline, .setHumidity, .selfTest,
   .getFeatureSetVersion, .getSerialId]

/-- CMDTAB: opcode, payload words, response words, least wait and decode kind of each command. The wait of a write-only
command is the open parameter `T_POST_WRITE_MS`. -/
def Command.descriptor : Command → Descriptor
  | .init                 => ⟨0x2003#16, 0, 0, Config.postWriteMs .init, .none⟩
  | .measureAirQuality    => ⟨0x2008#16, 0, 2, 12, .pair⟩
  | .measureRawSignals    => ⟨0x2050#16, 0, 2, 25, .pair⟩
  | .getBaseline          => ⟨0x2015#16, 0, 2, 10, .pair⟩
  | .setBaseline          => ⟨0x201E#16, 2, 0, Config.postWriteMs .setBaseline, .none⟩
  | .setHumidity          => ⟨0x2061#16, 1, 0, Config.postWriteMs .setHumidity, .none⟩
  | .selfTest             => ⟨0x2032#16, 0, 1, 220, .selfTest⟩
  | .getFeatureSetVersion => ⟨0x202F#16, 0, 1, 3, .single⟩
  | .getSerialId          => ⟨0x3682#16, 0, 3, 1, .serial48⟩

/-- The command whose wire opcode is `op`, if CMDTAB has one (R97). -/
def Command.ofOpcode (op : Word) : Option Command :=
  Command.all.find? fun c => c.descriptor.opcode == op

/-! ## The fields of a request word (30_encoding.md R56) -/

/-- OP, bits 63:56. -/
def fieldOp (w : ReqWord) : Byte := w.extractLsb' 56 8
/-- A, bits 31:24 (format H1). -/
def fieldA (w : ReqWord) : Byte := w.extractLsb' 24 8
/-- B, bits 23:16 (format H1). -/
def fieldB (w : ReqWord) : Byte := w.extractLsb' 16 8
/-- C, bits 15:8 (format H1). -/
def fieldC (w : ReqWord) : Byte := w.extractLsb' 8 8
/-- CMD, bits 55:40 (format HX). -/
def fieldCmd (w : ReqWord) : Word := w.extractLsb' 40 16
/-- NP, bits 39:38 (format HX). -/
def fieldNp (w : ReqWord) : BitVec 2 := w.extractLsb' 38 2
/-- P0, bits 31:16 (format HX). -/
def fieldP0 (w : ReqWord) : Word := w.extractLsb' 16 16
/-- P1, bits 15:0 (format HX). -/
def fieldP1 (w : ReqWord) : Word := w.extractLsb' 0 16

/-! ## The decoder -/

/-- Why a request word fails the format check of R96. All of them are refused alike, with INVALID and no effect. -/
inductive FormatError where
  /-- OP is not in R57's map (R67). -/
  | reservedSelector (op : Byte)
  /-- A reserved field of the format is not 0 (R68). -/
  | reservedField
  /-- An operand field the request does not use is not 0 (R68). -/
  | unusedOperand
  /-- NP = 3 (R68). -/
  | payloadCountReserved
  deriving DecidableEq, Repr

/-- What a request word decodes to. -/
inductive Decoded where
  /-- A row of the opcode table. -/
  | instr (i : Instr)
  /-- A word that fails the format check (R96). -/
  | malformed (why : FormatError)
  /-- A well-formed EXEC whose CMD or NP is not in CMDTAB (R69, R97, R98). -/
  | invalidExec (cmd : Word) (np : BitVec 2)
  deriving DecidableEq, Repr

/-- Format H0: bits 55:0 are reserved. -/
def decodeH0 (w : ReqWord) (i : Instr) : Decoded :=
  if w.extractLsb' 0 56 = 0#56 then .instr i else .malformed .reservedField

/-- Format H1: bits 55:32 and 7:0 are reserved; `unused` says that the operand fields the request does not use are 0. -/
def decodeH1 (w : ReqWord) (unused : Bool) (i : Instr) : Decoded :=
  if w.extractLsb' 32 24 = 0#24 ∧ w.extractLsb' 0 8 = 0#8 then
    if unused then .instr i else .malformed .unusedOperand
  else .malformed .reservedField

/-- The EXEC request of a command with its payload words. -/
def execInstr : Command → Word → Word → Instr
  | .init, _, _                 => .cmdInit
  | .measureAirQuality, _, _    => .cmdMeasureAirQuality
  | .measureRawSignals, _, _    => .cmdMeasureRawSignals
  | .getBaseline, _, _          => .cmdGetBaseline
  | .setBaseline, p0, p1        => .cmdSetBaseline p0 p1
  | .setHumidity, p0, _         => .cmdSetHumidity p0
  | .selfTest, _, _             => .cmdSelfTest
  | .getFeatureSetVersion, _, _ => .cmdGetFeatureSetVersion
  | .getSerialId, _, _          => .cmdGetSerialId

/-- Format HX (R56): the format check, then the lookup in CMDTAB and the payload count (R69, R97). -/
def decodeHX (w : ReqWord) : Decoded :=
  if w.extractLsb' 32 6 = 0#6 then
    if fieldNp w = 3#2 then .malformed .payloadCountReserved
    else if (fieldNp w = 0#2 ∧ fieldP0 w ≠ 0#16) ∨ (fieldNp w ≠ 2#2 ∧ fieldP1 w ≠ 0#16) then .malformed .unusedOperand
    else
      match Command.ofOpcode (fieldCmd w) with
      | some c =>
        if (fieldNp w).toNat = c.descriptor.ntx then .instr (execInstr c (fieldP0 w) (fieldP1 w))
        else .invalidExec (fieldCmd w) (fieldNp w)
      | none => .invalidExec (fieldCmd w) (fieldNp w)
  else .malformed .reservedField

/-- The decoder (R57): total on every word. -/
def decode (w : ReqWord) : Decoded :=
  if fieldOp w = 0x01#8 then decodeH0 w .crcInit
  else if fieldOp w = 0x02#8 then
    decodeH1 w (fieldB w == 0#8 && fieldC w == 0#8) (.crcUpdate (fieldA w))
  else if fieldOp w = 0x03#8 then decodeH1 w (fieldC w == 0#8) (.crcGen (fieldA w) (fieldB w))
  else if fieldOp w = 0x04#8 then decodeH1 w true (.crcVerify (fieldA w) (fieldB w) (fieldC w))
  else if fieldOp w = 0x10#8 then decodeH0 w .linkOpen
  else if fieldOp w = 0x11#8 then decodeH0 w .linkClose
  else if fieldOp w = 0x20#8 then decodeHX w
  else if fieldOp w = 0x30#8 then decodeH1 w (fieldB w == 0#8 && fieldC w == 0#8) (.regRead (fieldA w))
  else .malformed (.reservedSelector (fieldOp w))

/-- The instruction the decoder reads from an opcode-table word: the table numbers a request's bits as R56 does, so the
number is the request word itself (log 16). -/
def decodeTableWord (nbits w : Nat) : Option Instr :=
  if w % 2 ^ nbits < 2 ^ 64 then
    match decode (BitVec.ofNat 64 (w % 2 ^ nbits)) with
    | .instr i => some i
    | .malformed _ => none
    | .invalidExec _ _ => none
  else none

/-! ## The encoder -/

/-- Format H0 (R56). -/
def encodeH0 (op : Byte) : ReqWord := op ++ 0#56

/-- Format H1 (R56). -/
def encodeH1 (op a b c : Byte) : ReqWord := op ++ 0#24 ++ a ++ b ++ c ++ 0#8

/-- Format HX (R56). -/
def encodeHX (cmd : Command) (np : BitVec 2) (p0 p1 : Word) : ReqWord :=
  0x20#8 ++ cmd.descriptor.opcode ++ np ++ 0#6 ++ p0 ++ p1

/-- The request word of an instruction (R57, R71; 43_commands.md R119 to R127). -/
def encode : Instr → ReqWord
  | .crcInit                 => encodeH0 0x01#8
  | .crcUpdate a             => encodeH1 0x02#8 a 0#8 0#8
  | .crcGen hi lo            => encodeH1 0x03#8 hi lo 0#8
  | .crcVerify hi lo e       => encodeH1 0x04#8 hi lo e
  | .linkOpen                => encodeH0 0x10#8
  | .linkClose               => encodeH0 0x11#8
  | .cmdInit                 => encodeHX .init 0#2 0#16 0#16
  | .cmdMeasureAirQuality    => encodeHX .measureAirQuality 0#2 0#16 0#16
  | .cmdMeasureRawSignals    => encodeHX .measureRawSignals 0#2 0#16 0#16
  | .cmdGetBaseline          => encodeHX .getBaseline 0#2 0#16 0#16
  | .cmdSetBaseline p0 p1    => encodeHX .setBaseline 2#2 p0 p1
  | .cmdSetHumidity p0       => encodeHX .setHumidity 1#2 p0 0#16
  | .cmdSelfTest             => encodeHX .selfTest 0#2 0#16 0#16
  | .cmdGetFeatureSetVersion => encodeHX .getFeatureSetVersion 0#2 0#16 0#16
  | .cmdGetSerialId          => encodeHX .getSerialId 0#2 0#16 0#16
  | .regRead n               => encodeH1 0x30#8 n 0#8 0#8

end Sys2Proof
end

