-- ==== Sys2Proof/Machine/State.lean ====
section
/-!
DEFINITION. The engine's state (10_state.md R14 to R35), its reset value (R33), and the reasons a step can stop.
-/
namespace Sys2Proof.Machine

/-- The sequencer's phase, PHASE (R16). It takes the place of a program counter. -/
inductive Phase where
  | idle
  | tx
  | wait
  | rx
  /-- A LINK_OPEN is waiting for the bus agent's answer. -/
  | bind
  deriving DecidableEq, Repr

/-- The error codes (60_exceptions.md R135). Codes 5 to 7 are never produced, so they have no constructor. -/
inductive ErrCode where
  | ok
  | transport
  | checksum
  | invalid
  | functional
  deriving DecidableEq, Repr

/-- A response, RSP = (ERR_R, DATA) (30_encoding.md R58). -/
structure Response where
  err  : ErrCode
  data : BitVec 64
  deriving DecidableEq, Repr

/-- What is seen at the engine's interfaces. The trace of a state lists these events (log 6). -/
inductive Event where
  /-- HOST put a request into the port (R35). -/
  | offered (req : ReqWord)
  /-- The engine took the request from the port (R95). -/
  | accepted (req : ReqWord)
  /-- The response was handed to HOST (R113). -/
  | responded (rsp : Response)
  /-- BusBind was issued (R85). -/
  | bindIssued (bus : Nat) (addr : BitVec 7)
  /-- BusBind was answered (R87). -/
  | bindAnswered (ok : Bool)
  /-- BusRelease (R86). -/
  | released
  /-- BusWrite was issued to an address (R99, R41). -/
  | writeIssued (addr : BitVec 7) (bytes : List Byte)
  /-- BusWrite was answered with a count (R89). -/
  | writeAnswered (count : Nat)
  /-- Wait(ms) was started (R101). -/
  | waitStarted (ms : Nat)
  /-- TIMEBASE ended the Wait (R146). -/
  | waitEnded
  /-- BusRead of a length was issued to an address (R102, R41). -/
  | readIssued (addr : BitVec 7) (len : Nat)
  /-- BusRead was answered with bytes (R90). -/
  | readAnswered (bytes : List Byte)
  /-- Reset took effect (R153). -/
  | resetTaken
  deriving DecidableEq, Repr

/-- Why the machine stops. The engine has no traps (R10): no instruction raises a fault. -/
inductive Fault where
  /-- Raised by the TX and RX phases (never by an instruction) when LAST_CMD is no opcode of CMDTAB, so that the rules' `d`
  (R101, R104) does not exist. No run reaches such a state. Safe: the machine stops (log 7). -/
  | noDescriptor
  deriving DecidableEq, Repr

/-- Why an instruction has no meaning in the model. -/
inductive Refusal where
  /-- Raised by an arm of `exec` for an instruction not modelled. No arm raises it. Safe. -/
  | notModelled (mnemonic : String)
  deriving DecidableEq, Repr

/-- The engine's state. The last three fields are the model's own (logs 1, 6 and 12). -/
structure State where
  /-- LINK: the bus binding is open (R15). -/
  link        : Bool
  /-- PHASE (R16). -/
  phase       : Phase
  /-- LAST_CMD: the opcode of the last EXEC that passed validation (R17). -/
  lastCmd     : Word
  /-- CRC: the running CRC register (R18). -/
  crc         : Byte
  /-- TXBUF[0..7] (R19). -/
  txBuf       : Vector Byte 8
  /-- TX_LEN (R19). -/
  txLen       : BitVec 4
  /-- TX_COUNT (R19). -/
  txCount     : BitVec 4
  /-- RXBUF[0..8] (R20). -/
  rxBuf       : Vector Byte 9
  /-- RX_LEN (R20). -/
  rxLen       : BitVec 4
  /-- RX_COUNT (R20). -/
  rxCount     : BitVec 4
  /-- CRC_OK (R21). -/
  crcOk       : BitVec 3
  /-- ERR (R22). -/
  err         : ErrCode
  /-- RESULT_VALID (R23). -/
  resultValid : Bool
  /-- ST_PASS (R24). -/
  stPass      : Bool
  /-- RES0 (R25). -/
  res0        : Word
  /-- RES1 (R25). -/
  res1        : Word
  /-- RES2 (R25). -/
  res2        : Word
  /-- WAIT_MIN, in milliseconds (R26). -/
  waitMin     : Nat
  /-- The request port: at most one request offered and not yet accepted (R35). -/
  port        : Option ReqWord
  /-- The model's own: the environment's next inputs, oldest first; when it is empty they are free draws (log 1). -/
  env         : List EnvInput
  /-- The model's own: how many free draws have been taken (log 1). -/
  draws       : Nat
  /-- The model's own: the events at the interfaces, newest first (log 6). -/
  trace       : List Event
  deriving DecidableEq, Repr

/-- The state right after reset (R33, 70_reset_and_hazards.md R153). -/
def State.reset : State where
  link        := false
  phase       := .idle
  lastCmd     := 0#16
  crc         := 0xFF#8
  txBuf       := Vector.replicate 8 0#8
  txLen       := 0#4
  txCount     := 0#4
  rxBuf       := Vector.replicate 9 0#8
  rxLen       := 0#4
  rxCount     := 0#4
  crcOk       := 0#3
  err         := .ok
  resultValid := false
  stPass      := false
  res0        := 0#16
  res1        := 0#16
  res2        := 0#16
  waitMin     := 0
  port        := none
  env         := []
  draws       := 0
  trace       := []

/-- The outcome of a step or of a meaning. -/
abbrev Result := Host.Outcome State Fault Refusal

end Sys2Proof.Machine
end

