-- ==== Sys2Proof/Machine/Crc.lean ====
section
/-!
DEFINITION. The CRC function (40_crc_engine.md R73, R74).
-/
namespace Sys2Proof.Machine

/-- One of the eight steps of R74: the top bit is tested before the shift, and the shift drops it. -/
def crcShift (c : Byte) : Byte :=
  if c.msb then (c <<< 1) ^^^ Config.crcPoly else c <<< 1

/-- `n` steps of R74's loop. -/
def crcShifts : Nat → Byte → Byte
  | 0, c => c
  | n + 1, c => crcShifts n (crcShift c)

/-- `crc_update(c, b)` (R74). -/
def crcUpdate (c b : Byte) : Byte := crcShifts 8 (c ^^^ b)

/-- `crc8(s)` (R73): from 0xFF, every byte in order, no final XOR. -/
def crc8 (bytes : List Byte) : Byte := bytes.foldl crcUpdate Config.crcInitial

end Sys2Proof.Machine
end

