-- ==== Sys2Proof/Machine/Operands.lean ====
section
/-!
DEFINITION. Splitting and joining words, groups and frames (30_encoding.md R60 to R65; 20_memory.md R39, R40, R42).
-/
namespace Sys2Proof.Machine

/-- data_hi of a word (R64). -/
def hiByte (w : Word) : Byte := w.extractLsb' 8 8

/-- data_lo of a word (R64). -/
def loByte (w : Word) : Byte := w.extractLsb' 0 8

/-- The 3-byte group of a payload word (R61). -/
def group (p : Word) : List Byte := [hiByte p, loByte p, crc8 [hiByte p, loByte p]]

/-- The request frame (R62): the opcode, high byte first and without a CRC, then one group per payload word. -/
def requestFrame (cmd : Word) (payload : List Word) : List Byte :=
  [hiByte cmd, loByte cmd] ++ payload.flatMap group

/-- Bytes written into a buffer from index 0 on; the bytes after them keep their values. -/
def bufWrite {n : Nat} (bytes : List Byte) (buf : Vector Byte n) : Vector Byte n :=
  Vector.ofFn fun i => bytes[i.val]?.getD buf[i]

/-- TXBUF of an EXEC (R39): the frame, and 0x00 after it. -/
def txLayout (frame : List Byte) : Vector Byte 8 := bufWrite frame (Vector.replicate 8 0#8)

/-- The first `len` bytes of TXBUF, which the BusWrite sends (R99). -/
def txBytes (buf : Vector Byte 8) (len : BitVec 4) : List Byte := buf.toList.take len.toNat

/-- Word `i` of a response, `{RXBUF[3i], RXBUF[3i+1]}` (R64). -/
def rxWord (buf : Vector Byte 9) (i : Nat) : Word := byteAt buf (3 * i) ++ byteAt buf (3 * i + 1)

/-- The compare of one received group (42_sequencer.md R105). -/
def groupPasses (buf : Vector Byte 9) (i : Nat) : Bool :=
  crc8 [byteAt buf (3 * i), byteAt buf (3 * i + 1)] == byteAt buf (3 * i + 2)

end Sys2Proof.Machine
end

