-- ==== Sys2Proof/Machine/Flags.lean ====
section
/-!
DEFINITION. The packed registers STATUS and COUNTS (10_state.md R29, R30), the register map (R28), the error codes
(60_exceptions.md R135), and CRC_OK's computation (42_sequencer.md R105).
-/
namespace Sys2Proof.Machine

/-- The number of an error code (R135). -/
def errNumber : ErrCode → BitVec 3
  | .ok         => 0#3
  | .transport  => 1#3
  | .checksum   => 2#3
  | .invalid    => 3#3
  | .functional => 4#3

/-- A flag as one bit. -/
def flagBit (b : Bool) : BitVec 1 := BitVec.ofBool b

/-- STATUS (R29): reserved bits 3, 7 and 15:11 read 0. -/
def statusReg (s : State) : Word :=
  0#5 ++ s.crcOk ++ 0#1 ++ errNumber s.err ++ 0#1 ++ flagBit s.stPass ++ flagBit s.resultValid ++ flagBit s.link

/-- COUNTS (R30). -/
def countsReg (s : State) : Word := s.rxLen ++ s.txLen ++ s.rxCount ++ s.txCount

/-- The register map (R28): the value of register `n`, or none where the number is unmapped. -/
def readReg (n : Byte) (s : State) : Option Word :=
  if n = 0x00#8 then some (statusReg s)
  else if n = 0x01#8 then some (s.crc.zeroExtend 16)
  else if n = 0x02#8 then some s.lastCmd
  else if n = 0x03#8 then some (countsReg s)
  else if n = 0x04#8 then some s.res0
  else if n = 0x05#8 then some s.res1
  else if n = 0x06#8 then some s.res2
  else if 0x10 ≤ n.toNat ∧ n.toNat ≤ 0x18 then some ((byteAt s.rxBuf (n.toNat - 0x10)).zeroExtend 16)
  else if 0x20 ≤ n.toNat ∧ n.toNat ≤ 0x27 then some ((byteAt s.txBuf (n.toNat - 0x20)).zeroExtend 16)
  else none

/-- The new bit `i` of CRC_OK (R105): the verdict of group `i` where the command has such a group, else the old bit. -/
def crcOkBit (buf : Vector Byte 9) (nrx : Nat) (old : BitVec 3) (i : Nat) : Bool :=
  if i < nrx then groupPasses buf i else old.getLsbD i

/-- CRC_OK after the check of all `nrx` groups (R105). -/
def crcVerdicts (buf : Vector Byte 9) (nrx : Nat) (old : BitVec 3) : BitVec 3 :=
  flagBit (crcOkBit buf nrx old 2) ++ flagBit (crcOkBit buf nrx old 1) ++ flagBit (crcOkBit buf nrx old 0)

/-- Every checked CRC_OK bit is 1 (R106). -/
def allPass (nrx : Nat) (crcOk : BitVec 3) : Bool := (List.range nrx).all fun i => crcOk.getLsbD i

end Sys2Proof.Machine
end

