-- ==== Sys2Proof/Machine/Ops.lean ====
section
/-!
DEFINITION. The shared operations: completion (42_sequencer.md R113; 60_exceptions.md R143), acceptance and refusal (R95 to
R98), the start of an EXEC (R99, R100), reset (70_reset_and_hazards.md R153), and the environment's inputs (logs 1 to 5).
-/
namespace Sys2Proof.Machine

/-! ## Completion -/

/-- `complete(e, data)` (R113): PHASE becomes IDLE and the response goes to the host, in one step. -/
def complete (e : ErrCode) (data : BitVec 64) (s : State) : State :=
  { s with phase := .idle, trace := .responded ⟨e, data⟩ :: s.trace }

/-- An error completion that records its code in ERR (R143). It takes the place of exception entry; the return is the
completion itself, since no return request exists (R145). -/
def completeError (e : ErrCode) (s : State) : State := complete e 0#64 { s with err := e }

/-- The success completion of an EXEC (R112); ERR is OK, or FUNCTIONAL after R111. -/
def completeExec (data : BitVec 64) (s : State) : State := complete s.err data { s with resultValid := true }

/-! ## Acceptance -/

/-- The engine takes the request out of the port (R95). -/
def takeRequest (w : ReqWord) (s : State) : State :=
  { s with port := none, trace := .accepted w :: s.trace }

/-- A request that fails the format check (R96): INVALID, and no state element is written. -/
def refuseMalformed (s : State) : State := complete .invalid 0#64 s

/-- An EXEC refused as INVALID (R98). RES0 to RES2 keep their values, as R98, R14 and R34 say (log 18). -/
def refuseExec (s : State) : State :=
  completeError .invalid { s with resultValid := false, stPass := false }

/-! ## The start of an EXEC -/

/-- TX_LEN of a command (R70). -/
def txLenOf (c : Command) : BitVec 4 := BitVec.ofNat 4 (2 + 3 * c.descriptor.ntx)

/-- RX_LEN of a command (R70). -/
def rxLenOf (c : Command) : BitVec 4 := BitVec.ofNat 4 (3 * c.descriptor.nrx)

/-- TXBUF of a command with its payload words (R100). -/
def frameOf (c : Command) (payload : List Word) : Vector Byte 8 :=
  txLayout (requestFrame c.descriptor.opcode payload)

/-- The start step of a valid EXEC (R99, R100): it clears the last exchange, builds the frame and issues the BusWrite. -/
def beginExec (c : Command) (payload : List Word) (s : State) : State :=
  { s with
    lastCmd     := c.descriptor.opcode
    txBuf       := frameOf c payload
    rxBuf       := Vector.replicate 9 0#8
    txLen       := txLenOf c
    rxLen       := rxLenOf c
    txCount     := 0#4
    rxCount     := 0#4
    crcOk       := 0#3
    resultValid := false
    stPass      := false
    res0        := 0#16
    res1        := 0#16
    res2        := 0#16
    err         := .ok
    phase       := .tx
    trace       := .writeIssued Config.busAddress (txBytes (frameOf c payload) (txLenOf c)) :: s.trace }

/-- An EXEC whose CMD and NP are those of command `c` (R97): it starts when the link is open, else it is refused. -/
def startExec (c : Command) (payload : List Word) (s : State) : Result :=
  if s.link then .next (beginExec c payload s) else .next (refuseExec s)

/-! ## The environment's inputs -/

/-- The next input: the head of the state's list, or a free draw when the list is empty (log 1). -/
def nextInput (s : State) : EnvInput :=
  match s.env with
  | m :: _ => m
  | [] => Config.freeInput s.draws

/-- The state with its next input used up. -/
def dropInput (s : State) : State :=
  match s.env with
  | _ :: rest => { s with env := rest }
  | [] => { s with draws := s.draws + 1 }

/-- The next input is the reset input, listed or drawn: it goes before everything (R142, R153). -/
def resetPending (s : State) : Bool :=
  match nextInput s with
  | .reset => true
  | _ => false

/-- Reset (R153, R154): every element takes its reset value and the port is emptied; the request in progress gets no
response. The environment's inputs and the trace are not the engine's and go on. DESIGN CHOICE (log 17): the event `resetTaken`
stands for the release of the binding too; no `released` event is recorded, which is LINK_CLOSE's BusRelease (R86). -/
def takeReset (s : State) : State :=
  { State.reset with env := s.env, draws := s.draws, trace := .resetTaken :: s.trace }

/-- HOST offers a request (R35): it goes into the port when the port is empty; a full port takes no second one (log 5). -/
def offerRequest (w : ReqWord) (s : State) : State :=
  match s.port with
  | none => { s with port := some w, trace := .offered w :: s.trace }
  | some _ => s

/-- The data of the last response handed to the host, if there is one. -/
def lastResponse (s : State) : Option Response :=
  s.trace.findSome? fun e =>
    match e with
    | .responded r => some r
    | _ => none

end Sys2Proof.Machine
end

