-- ==== Sys2Proof/Machine/ChipCommands.lean ====
section
/-!
DEFINITION. The meanings of the nine EXEC requests (43_commands.md R119 to R127): the acceptance step of each. The TX, WAIT
and RX phases that follow are Machine/Sequencer.lean's.
-/
namespace Sys2Proof.Machine

/-- EXEC CMD_INIT (R119). -/
def execCmdInit (s : State) : Result := startExec .init [] s

/-- EXEC CMD_MEASURE_AIR_QUALITY (R120). -/
def execCmdMeasureAirQuality (s : State) : Result := startExec .measureAirQuality [] s

/-- EXEC CMD_MEASURE_RAW_SIGNALS (R121). -/
def execCmdMeasureRawSignals (s : State) : Result := startExec .measureRawSignals [] s

/-- EXEC CMD_GET_BASELINE (R122). -/
def execCmdGetBaseline (s : State) : Result := startExec .getBaseline [] s

/-- EXEC CMD_SET_BASELINE (R123): P0 goes out before P1. -/
def execCmdSetBaseline (p0 p1 : Word) (s : State) : Result := startExec .setBaseline [p0, p1] s

/-- EXEC CMD_SET_HUMIDITY (R124). -/
def execCmdSetHumidity (p0 : Word) (s : State) : Result := startExec .setHumidity [p0] s

/-- EXEC CMD_SELF_TEST (R125). -/
def execCmdSelfTest (s : State) : Result := startExec .selfTest [] s

/-- EXEC CMD_GET_FEATURE_SET_VERSION (R126). -/
def execCmdGetFeatureSetVersion (s : State) : Result := startExec .getFeatureSetVersion [] s

/-- EXEC CMD_GET_SERIAL_ID (R127). -/
def execCmdGetSerialId (s : State) : Result := startExec .getSerialId [] s

end Sys2Proof.Machine
end

