-- ==== Sys2Proof/Machine/CrcRequests.lean ====
section
/-!
DEFINITION. The meanings of the four CRC requests (40_crc_engine.md R75 to R79).
-/
namespace Sys2Proof.Machine

/-- The new CRC goes into the CRC register and is the response's data (R59). -/
def storeCrc (c : Byte) (data : BitVec 64) (s : State) : Result :=
  .next (complete .ok data { s with crc := c })

/-- CRC_INIT (R75). -/
def execCrcInit (s : State) : Result :=
  storeCrc Config.crcInitial (Config.crcInitial.zeroExtend 64) s

/-- CRC_UPDATE (R76). -/
def execCrcUpdate (a : Byte) (s : State) : Result :=
  storeCrc (crcUpdate s.crc a) ((crcUpdate s.crc a).zeroExtend 64) s

/-- CRC_GENERATE (R77): the prior CRC is ignored. -/
def execCrcGen (hi lo : Byte) (s : State) : Result :=
  storeCrc (crc8 [hi, lo]) ((crc8 [hi, lo]).zeroExtend 64) s

/-- CRC_VERIFY (R78): CRC takes the computed value, and a mismatch is a result, not an error. -/
def execCrcVerify (hi lo e : Byte) (s : State) : Result :=
  storeCrc (crc8 [hi, lo]) ((flagBit (crc8 [hi, lo] == e)).zeroExtend 64) s

end Sys2Proof.Machine
end

