-- ==== Sys2Proof/Machine/LinkRequests.lean ====
section
/-!
DEFINITION. The meanings of LINK_OPEN and LINK_CLOSE (41_link.md R85, R86).
-/
namespace Sys2Proof.Machine

/-- LINK_OPEN (R85): INVALID on an open link; else the bind is issued and the phase is BIND until it is answered. -/
def execLinkOpen (s : State) : Result :=
  if s.link then .next (completeError .invalid s)
  else .next { s with phase := .bind, trace := .bindIssued Config.busId Config.busAddress :: s.trace }

/-- The binding is dropped, if there is one (R86). -/
def releaseLink (s : State) : State :=
  if s.link then { s with link := false, trace := .released :: s.trace } else s

/-- LINK_CLOSE (R86): it always completes OK. -/
def execLinkClose (s : State) : Result :=
  .next (complete .ok 0#64 { releaseLink s with err := .ok })

end Sys2Proof.Machine
end

