-- ==== Sys2Proof/Machine/RegRead.lean ====
section
/-!
DEFINITION. The meaning of REG_READ (42_sequencer.md R114).
-/
namespace Sys2Proof.Machine

/-- REG_READ (R114): the register's value, or INVALID for an unmapped number; nothing is written. -/
def execRegRead (n : Byte) (s : State) : Result :=
  match readReg n s with
  | some v => .next (complete .ok (v.zeroExtend 64) s)
  | none => .next (complete .invalid 0#64 s)

end Sys2Proof.Machine
end

