-- ==== Sys2Proof/Machine/Dispatch.lean ====
section
/-!
DEFINITION. The dispatch of an accepted request to its meaning (42_sequencer.md R96; 30_encoding.md R57).
-/
namespace Sys2Proof.Machine

def exec (i : Instr) (s : State) : Host.Outcome State Fault Refusal :=
  match i with
  | .crcInit => Sys2Proof.Machine.execCrcInit s
  | .crcUpdate a => Sys2Proof.Machine.execCrcUpdate a s
  | .crcGen hi lo => Sys2Proof.Machine.execCrcGen hi lo s
  | .crcVerify hi lo e => Sys2Proof.Machine.execCrcVerify hi lo e s
  | .linkOpen => Sys2Proof.Machine.execLinkOpen s
  | .linkClose => Sys2Proof.Machine.execLinkClose s
  | .cmdInit => Sys2Proof.Machine.execCmdInit s
  | .cmdMeasureAirQuality => Sys2Proof.Machine.execCmdMeasureAirQuality s
  | .cmdMeasureRawSignals => Sys2Proof.Machine.execCmdMeasureRawSignals s
  | .cmdGetBaseline => Sys2Proof.Machine.execCmdGetBaseline s
  | .cmdSetBaseline p0 p1 => Sys2Proof.Machine.execCmdSetBaseline p0 p1 s
  | .cmdSetHumidity p0 => Sys2Proof.Machine.execCmdSetHumidity p0 s
  | .cmdSelfTest => Sys2Proof.Machine.execCmdSelfTest s
  | .cmdGetFeatureSetVersion => Sys2Proof.Machine.execCmdGetFeatureSetVersion s
  | .cmdGetSerialId => Sys2Proof.Machine.execCmdGetSerialId s
  | .regRead n => Sys2Proof.Machine.execRegRead n s

end Sys2Proof.Machine
end

