-- ==== Sys2Proof/Machine/Sequencer.lean ====
section
/-!
DEFINITION. What the engine does when the environment answers: the BIND phase of LINK_OPEN (41_link.md R85) and the TX, WAIT
and RX phases of an EXEC (42_sequencer.md R101 to R112).
-/
namespace Sys2Proof.Machine

/-- The bus agent answers the bind (R85, R87). -/
def onBindAnswer (ok : Bool) (s : State) : Result :=
  if ok then
    .next (complete .ok 0#64 { s with link := true, err := .ok, trace := .bindAnswered true :: s.trace })
  else
    .next (completeError .transport { s with trace := .bindAnswered false :: s.trace })

/-- The write was complete (R101): the Wait of the current command starts. -/
def startWait (s : State) : Result :=
  match Command.ofOpcode s.lastCmd with
  | some c =>
    .next { s with
      waitMin := c.descriptor.delayMs
      phase   := .wait
      trace   := .waitStarted c.descriptor.delayMs :: s.trace }
  | none => .fault .noDescriptor

/-- The count of a BusWrite, at most TX_LEN (R89, log 2). -/
def writeCountOf (k : Nat) (s : State) : Nat := min k s.txLen.toNat

/-- The bus agent answers the BusWrite with a count (R101). -/
def onWriteCount (k : Nat) (s : State) : Result :=
  let moved := writeCountOf k s
  let s' := { s with txCount := BitVec.ofNat 4 moved, trace := .writeAnswered moved :: s.trace }
  if moved < s.txLen.toNat then .next (completeError .transport s') else startWait s'

/-- TIMEBASE ends the Wait (R102): a command without a response completes (R107, R112), else the BusRead is issued. -/
def onWaitEnd (s : State) : Result :=
  let s' := { s with trace := .waitEnded :: s.trace }
  if s.rxLen = 0#4 then .next (completeExec 0#64 s')
  else .next { s' with phase := .rx, trace := .readIssued Config.busAddress s.rxLen.toNat :: s'.trace }

/-- The self-test pattern D4 00 (R111). -/
def selfTestPasses (buf : Vector Byte 9) : Bool := byteAt buf 0 == 0xD4#8 && byteAt buf 1 == 0x00#8

/-- The decode of a response all of whose groups passed (R107 to R111), and the completion (R112). -/
def decodeResponse (kind : DecodeKind) (s : State) : State :=
  match kind with
  | .none => completeExec 0#64 s
  | .pair =>
    completeExec (0#32 ++ rxWord s.rxBuf 0 ++ rxWord s.rxBuf 1)
      { s with res0 := rxWord s.rxBuf 0, res1 := rxWord s.rxBuf 1 }
  | .single => completeExec ((rxWord s.rxBuf 0).zeroExtend 64) { s with res0 := rxWord s.rxBuf 0 }
  | .selfTest =>
    completeExec ((flagBit (selfTestPasses s.rxBuf)).zeroExtend 64)
      { s with
        res0   := rxWord s.rxBuf 0
        stPass := selfTestPasses s.rxBuf
        err    := if selfTestPasses s.rxBuf then s.err else .functional }
  | .serial48 =>
    completeExec (0#16 ++ rxWord s.rxBuf 0 ++ rxWord s.rxBuf 1 ++ rxWord s.rxBuf 2)
      { s with res0 := rxWord s.rxBuf 0, res1 := rxWord s.rxBuf 1, res2 := rxWord s.rxBuf 2 }

/-- The check of every group (R105), the hard failure (R106) and the decode, in one step (R104). -/
def checkResponse (d : Descriptor) (s : State) : State :=
  let s' := { s with crcOk := crcVerdicts s.rxBuf d.nrx s.crcOk }
  if allPass d.nrx s'.crcOk then decodeResponse d.kind s' else completeError .checksum s'

/-- The bytes of a BusRead, at most RX_LEN (R90, log 2). -/
def readBytesOf (bytes : List Byte) (s : State) : List Byte := bytes.take s.rxLen.toNat

/-- The bus agent answers the BusRead with bytes (R104). -/
def onReadBytes (bytes : List Byte) (s : State) : Result :=
  let got := readBytesOf bytes s
  let s' := { s with
    rxBuf   := bufWrite got s.rxBuf
    rxCount := BitVec.ofNat 4 got.length
    trace   := .readAnswered got :: s.trace }
  if got.length < s.rxLen.toNat then .next (completeError .transport s')
  else
    match Command.ofOpcode s.lastCmd with
    | some c => .next (checkResponse c.descriptor s')
    | none => .fault .noDescriptor

/-- One input of the environment. An answer to an operation that is not in progress is no event (log 3). -/
def environmentStep (m : EnvInput) (s : State) : Result :=
  match m with
  | .offer w => .next (offerRequest w s)
  | .bindAnswer ok => if s.phase = .bind then onBindAnswer ok s else .next s
  | .writeCount k => if s.phase = .tx then onWriteCount k s else .next s
  | .waitEnd => if s.phase = .wait then onWaitEnd s else .next s
  | .readBytes bytes => if s.phase = .rx then onReadBytes bytes s else .next s
  | .reset => .next (takeReset s)
  | .silent => .next s

end Sys2Proof.Machine
end

