-- ==== Sys2Proof/Machine/Step.lean ====
section
/-!
DEFINITION. One step of the machine: reset, the acceptance of a request, or one input of the environment (00_scope.md R11,
R12; 42_sequencer.md R95, R96; log 4).
-/
namespace Sys2Proof.Machine

/-- The accepted word is decoded once (R95) and dispatched (R96). -/
def runDecoded (d : Decoded) (s : State) : Host.Outcome State Fault Refusal :=
  match d with
  | .instr i => exec i s
  | .malformed _ => .next (refuseMalformed s)
  | .invalidExec _ _ => .next (refuseExec s)

/-- One step. A reset that has come goes first (R142, R153); an idle engine with a request in its port accepts it, and uses up
no input; in every other state the engine takes the environment's next input. -/
def step (s : State) : Host.Outcome State Fault Refusal :=
  if resetPending s then .next (takeReset (dropInput s))
  else
    match s.phase, s.port with
    | .idle, some w => runDecoded (decode w) (takeRequest w s)
    | _, _ => environmentStep (nextInput s) (dropInput s)

/-- An input list with the resets at its head dropped; never empty, so that its next input is not a free draw (log 11). -/
def withoutReset (env : List EnvInput) : List EnvInput :=
  match env.dropWhile fun m => m == EnvInput.reset with
  | [] => [.silent]
  | m :: rest => m :: rest

/-- `s` with an opcode-table word offered in the request port of an idle engine and no reset to come before it, so that the
next step accepts exactly it (log 11). -/
def State.withFetchWord (s : State) (nbits w : Nat) : State :=
  { s with
    phase := .idle
    port  := some (BitVec.ofNat 64 (w % 2 ^ nbits))
    env   := withoutReset s.env }

end Sys2Proof.Machine
end

