-- ==== Sys2Proof/Machine/Facade.lean ====
section
/-!
DEFINITION. The host-side helpers the spec defines over the requests: hum_pack (43_commands.md R128, R129), the expansion of
the Facade operations (30_encoding.md R72; R130, R131) and their typed results (R132, R133). No step of the engine uses them
(log 14).
-/
namespace Sys2Proof.Machine

/-! ## hum_pack -/

/-- The significand of a binary64: 2^52 is added for a normal number. -/
def binary64Significand (h : BitVec 64) : Nat :=
  if (h.extractLsb' 52 11).toNat = 0 then (h.extractLsb' 0 52).toNat else 2 ^ 52 + (h.extractLsb' 0 52).toNat

/-- The exponent of a binary64, offset so that the value is significand * 2^(exponent - 1075). -/
def binary64Exponent (h : BitVec 64) : Nat := max 1 (h.extractLsb' 52 11).toNat

/-- floor(|h| * 256) of a finite binary64, in exact arithmetic (R129). -/
def scaledHumidity (h : BitVec 64) : Nat :=
  if 1067 ≤ binary64Exponent h then binary64Significand h * 2 ^ (binary64Exponent h - 1067)
  else binary64Significand h / 2 ^ (1067 - binary64Exponent h)

/-- `hum_pack(h)` (R128) on the bits of a binary64: the integer part in the high byte, the fraction times 256, truncated, in
the low byte. Outside 0 <= h < 256, and for NaN and infinities, there is no word (R129). A zero of either sign is 0 (log 13). -/
def humPack (h : BitVec 64) : Option Word :=
  if (h.extractLsb' 52 11).toNat = 2047 then none
  else if h.msb = true ∧ binary64Significand h ≠ 0 then none
  else if scaledHumidity h < 65536 then
    some (BitVec.ofNat 8 (scaledHumidity h / 256) ++ BitVec.ofNat 8 (scaledHumidity h % 256))
  else none

/-! ## Facade operations -/

/-- The Facade operations (R72). `setBaseline` takes its words in wire order, `setHumidity` the bits of a binary64. -/
inductive FacadeOp where
  | init
  | deinit
  | measureAirQuality
  | measureRawSignals
  | getBaseline
  | setBaseline (w0 w1 : Word)
  | setHumidity (h : BitVec 64)
  | selfTest
  | getFeatureSetVersion
  | getSerialId
  deriving DecidableEq, Repr

/-- The first request of an operation (R72, R130, R131). None: the operation is refused and nothing is sent (R129). -/
def facadeFirst : FacadeOp → Option Instr
  | .init                 => some .linkOpen
  | .deinit               => some .linkClose
  | .measureAirQuality    => some .cmdMeasureAirQuality
  | .measureRawSignals    => some .cmdMeasureRawSignals
  | .getBaseline          => some .cmdGetBaseline
  | .setBaseline w0 w1    => some (.cmdSetBaseline w0 w1)
  | .setHumidity h        => (humPack h).map Instr.cmdSetHumidity
  | .selfTest             => some .cmdSelfTest
  | .getFeatureSetVersion => some .cmdGetFeatureSetVersion
  | .getSerialId          => some .cmdGetSerialId

/-- The second request, after the first one's response: only `init` has one, if the open completed OK (R130). -/
def facadeSecond (op : FacadeOp) (first : Response) : Option Instr :=
  if op = .init ∧ first.err = .ok then some .cmdInit else none

/-- The payload words of set_baseline for a pair of baselines, in the order of the open parameter BASELINE_WRITE_ORDER (R7,
log 10). -/
def baselineWords (eco2 tvoc : Word) : Word × Word :=
  if Config.eco2BaselineFirst then (eco2, tvoc) else (tvoc, eco2)

/-- A typed result (R132). -/
inductive FacadeValue where
  | unit
  | pair (first second : Word)
  | single (w : Word)
  | serial (id : BitVec 64)
  | selfTest (pass : Bool)
  deriving DecidableEq, Repr

/-- What a Facade operation returns (R133): a typed result with its code, or an error kind, never a default value. -/
inductive FacadeOutcome where
  | value (code : ErrCode) (v : FacadeValue)
  | error (kind : ErrCode)
  deriving DecidableEq, Repr

/-- The typed value in the DATA of an operation's last response (R132). -/
def facadeValue (op : FacadeOp) (data : BitVec 64) : FacadeValue :=
  match op with
  | .init | .deinit | .setBaseline _ _ | .setHumidity _ => .unit
  | .measureAirQuality | .measureRawSignals | .getBaseline => .pair (data.extractLsb' 16 16) (data.extractLsb' 0 16)
  | .getFeatureSetVersion => .single (data.extractLsb' 0 16)
  | .getSerialId => .serial data
  | .selfTest => .selfTest (data.getLsbD 0)

/-- The outcome of an operation from its last response (R133; R130 for `init`, whose last response is the first one that is
not OK, or the second). -/
def facadeOutcome (op : FacadeOp) (r : Response) : FacadeOutcome :=
  if r.err = .ok ∨ (op = .selfTest ∧ r.err = .functional) then .value r.err (facadeValue op r.data)
  else .error r.err

end Sys2Proof.Machine
end

