-- ==== Sys2Proof/Safety.lean ====
section
/-!
DEFINITION. What holds of every state a run can reach (`EngineInv`), the order of events of 20_memory.md R51 and R52 as an
automaton over the trace, and what a frame on the bus is (R41, R69).
-/
namespace Sys2Proof.Machine

/-! ## The invariant of the engine's state -/

/-- The phases of an EXEC in progress (R16). -/
def execInProgress (p : Phase) : Prop := p = .tx ∨ p = .wait ∨ p = .rx

/-- The invariant: what the state elements mean (10_state.md R16 to R26, R31). -/
structure EngineInv (s : State) : Prop where
  /-- TX_LEN is 0 only until the first accepted EXEC (R30). -/
  fresh : s.txLen = 0#4 → s.lastCmd = 0#16 ∧ s.rxLen = 0#4 ∧ s.txBuf = Vector.replicate 8 0#8
  /-- After it, the transmit state is the frame of one command of CMDTAB (R17, R19, R20, R39). -/
  exchange : s.txLen ≠ 0#4 → ∃ (c : Command) (payload : List Word),
    s.lastCmd = c.descriptor.opcode ∧ payload.length = c.descriptor.ntx ∧ s.txLen = txLenOf c ∧ s.rxLen = rxLenOf c ∧ s.txBuf = frameOf c payload
  /-- The counts are at most the lengths (R30). -/
  txCountLe : s.txCount ≤ s.txLen
  rxCountLe : s.rxCount ≤ s.rxLen
  /-- A byte not received reads 0x00 (R20, R31). -/
  rxTail : ∀ i, s.rxCount.toNat ≤ i → byteAt s.rxBuf i = 0#8
  /-- CRC_OK is the verdict of each group of a response received in full (R21, R105). -/
  crcOkIff : ∀ i, i < 3 → (s.crcOk.getLsbD i = true ↔
    s.rxCount = s.rxLen ∧ 3 * i + 2 < s.rxLen.toNat ∧ groupPasses s.rxBuf i = true)
  /-- An EXEC in progress has an open link and no result yet (R99, R115). -/
  busy : execInProgress s.phase → s.link = true ∧ s.txLen ≠ 0#4 ∧ s.err = .ok ∧ s.resultValid = false ∧
    s.rxCount = 0#4 ∧ s.res0 = 0#16 ∧ s.res1 = 0#16 ∧ s.res2 = 0#16
  /-- Past the TX phase the whole frame was sent, and WAIT_MIN is the command's least wait (R26, R101). -/
  sent : s.phase = .wait ∨ s.phase = .rx → s.txCount = s.txLen ∧
    ∀ c : Command, Command.ofOpcode s.lastCmd = some c → s.waitMin = c.descriptor.delayMs
  /-- A BusRead is never of 0 bytes (R90, R102). -/
  reading : s.phase = .rx → s.rxLen ≠ 0#4
  /-- A bind is in progress on a closed link only (R85). -/
  binding : s.phase = .bind → s.link = false
  /-- A valid result comes from an exchange moved in full, all of whose groups passed; the result registers hold its words,
  and 0x0000 past them (R23, R25). -/
  valid : s.resultValid = true → s.txLen ≠ 0#4 ∧ s.txCount = s.txLen ∧ s.rxCount = s.rxLen ∧
    (∀ i, 3 * i + 2 < s.rxLen.toNat → groupPasses s.rxBuf i = true) ∧
    s.res0 = rxWord s.rxBuf 0 ∧ s.res1 = rxWord s.rxBuf 1 ∧ s.res2 = rxWord s.rxBuf 2
  /-- ST_PASS (R24). -/
  stPassIff : s.stPass = true ↔ s.resultValid = true ∧ s.lastCmd = 0x2032#16 ∧ s.res0 = 0xD400#16
  /-- ERR = FUNCTIONAL is a self-test that completed with another word (R139). -/
  functional : s.err = .functional → s.resultValid = true ∧ s.lastCmd = 0x2032#16 ∧ s.stPass = false
  /-- ERR = CHECKSUM is a full response with a failing group and no result (R106, R137, R144). -/
  checksum : s.err = .checksum → s.resultValid = false ∧ s.rxCount = s.rxLen ∧
    (∃ i, 3 * i + 2 < s.rxLen.toNat ∧ groupPasses s.rxBuf i = false) ∧
    s.res0 = 0#16 ∧ s.res1 = 0#16 ∧ s.res2 = 0#16

/-! ## The order of events (R51, R52) -/

/-- Where a request stands in the order of R51. -/
inductive Point where
  | idle
  | accepted
  | released
  | binding
  | bound
  | writing
  | written
  | waiting
  | waited
  | reading
  | read
  deriving DecidableEq, Repr

/-- The next point after an event, or none where R51 and R85 to R113 do not allow the event there. -/
def nextPoint (p : Point) (e : Event) : Option Point :=
  match e with
  | .offered _       => some p
  | .resetTaken      => some .idle
  | .accepted _      => if p = .idle then some .accepted else none
  | .released        => if p = .accepted then some .released else none
  | .bindIssued _ _  => if p = .accepted then some .binding else none
  | .writeIssued _ _ => if p = .accepted then some .writing else none
  | .bindAnswered _  => if p = .binding then some .bound else none
  | .writeAnswered _ => if p = .writing then some .written else none
  | .waitStarted _   => if p = .written then some .waiting else none
  | .waitEnded       => if p = .waiting then some .waited else none
  | .readIssued _ _  => if p = .waited then some .reading else none
  | .readAnswered _  => if p = .reading then some .read else none
  | .responded _     => if p ∈ [.accepted, .released, .bound, .written, .waited, .read] then some .idle else none

/-- The point a trace (newest first) leads to from an idle engine, if the order allows every event of it. -/
def tracePoint : List Event → Option Point
  | [] => some .idle
  | e :: earlier => (tracePoint earlier).bind fun p => nextPoint p e

/-- The point a phase stands for. -/
def phasePoint : Phase → Point
  | .idle => .idle
  | .tx   => .writing
  | .wait => .waiting
  | .rx   => .reading
  | .bind => .binding

/-- The trace follows the order of R51 and R52 and has led to the current phase. -/
def Ordered (s : State) : Prop := tracePoint s.trace = some (phasePoint s.phase)

/-! ## What is put on the bus -/

/-- An event that is lawful bus traffic: a write is the request frame of a command of CMDTAB with as many payload words as the
command takes, a read has the length of a command's response, and both go to 0x58 (R41, R47, R62, R63, R69). -/
def lawfulEvent (e : Event) : Prop :=
  match e with
  | .writeIssued addr bytes => addr = 0x58#7 ∧
      ∃ (c : Command) (payload : List Word), payload.length = c.descriptor.ntx ∧
        bytes = requestFrame c.descriptor.opcode payload
  | .readIssued addr len => addr = 0x58#7 ∧ ∃ c : Command, len = 3 * c.descriptor.nrx ∧ 0 < len
  | .bindIssued _ addr => addr = 0x58#7
  | _ => True

/-- Every event of the trace is lawful. -/
def LawfulTrace (s : State) : Prop := ∀ e ∈ s.trace, lawfulEvent e

/-- A step ends a request with the response `r`: it is the newest event of a longer trace. -/
def completesWith (s t : State) (r : Response) : Prop :=
  t.trace.head? = some (.responded r) ∧ s.trace.length < t.trace.length

end Sys2Proof.Machine
end

