-- ==== Sys2Proof/Certificates/Slice0/Obligations.lean ====
section
/-!
DEFINITION. The statements for the provers. Each docstring names the rule of spec/ it formalises. The field `draws` and the
opaque constants of Config stand in no statement by value: every statement holds whatever they are.
-/
open Sys2Proof Sys2Proof.Machine

namespace Sys2Proof.Claims

/-! ## What the statements say things with -/

/-- The engine is about to accept the word `w` (R95): it is idle, `w` is in the port, and no reset comes (R142). -/
def accepting (s : State) (w : ReqWord) : Prop :=
  s.phase = .idle ∧ s.port = some w ∧ nextInput s ≠ .reset

/-- CMD of R56, by its bits. -/
def cmdOf (w : ReqWord) : Word := w.extractLsb' 40 16

/-- Opcode and payload-word count of the nine commands, from the table of 43_commands.md R118. -/
def payloadTable : List (Word × Nat) :=
  [(0x2003#16, 0), (0x2008#16, 0), (0x2050#16, 0), (0x2015#16, 0), (0x201E#16, 2), (0x2061#16, 1), (0x2032#16, 0),
   (0x202F#16, 0), (0x3682#16, 0)]

/-- `valid_exec` of R97. -/
def validExec (w : ReqWord) (s : State) : Prop :=
  (cmdOf w, w.payloadCount) ∈ payloadTable ∧ s.link = true

/-- The seven EXEC requests without payload: request, opcode, response words (R118 to R122, R125 to R127). -/
def bareCommands : List (Instr × Word × Nat) :=
  [(.cmdInit, 0x2003#16, 0), (.cmdMeasureAirQuality, 0x2008#16, 2), (.cmdMeasureRawSignals, 0x2050#16, 2),
   (.cmdGetBaseline, 0x2015#16, 2), (.cmdSelfTest, 0x2032#16, 1), (.cmdGetFeatureSetVersion, 0x202F#16, 1),
   (.cmdGetSerialId, 0x3682#16, 3)]

/-- The start step of R99 with a given opcode, TXBUF, bytes to write and lengths, every element written out. -/
def started (s : State) (cmd : Word) (buf : Vector Byte 8) (bytes : List Byte) (txLen rxLen : BitVec 4) : State :=
  { s with
    lastCmd := cmd, txBuf := buf, rxBuf := #v[0, 0, 0, 0, 0, 0, 0, 0, 0], txLen := txLen, rxLen := rxLen,
    txCount := 0, rxCount := 0, crcOk := 0, resultValid := false, stPass := false, res0 := 0, res1 := 0, res2 := 0,
    err := .ok, phase := .tx, trace := .writeIssued 0x58#7 bytes :: s.trace }

/-- The refusal of R98: ERR, RESULT_VALID and ST_PASS, and the response; nothing else. -/
def execRefused (s : State) : State :=
  { s with err := .invalid, resultValid := false, stPass := false, trace := .responded ⟨.invalid, 0⟩ :: s.trace }

/-- The state after an acceptance took the request out of the port (R95). -/
def taken (s : State) (w : ReqWord) : State := { s with port := none, trace := .accepted w :: s.trace }

/-- One step of R74's loop in plain numbers. -/
def crcLoopStep (c : Nat) : Nat := if c.testBit 7 then (2 * c % 256) ^^^ 0x31 else 2 * c % 256

/-- crc8 of a word, as its two bytes (R73). -/
def wordCrc (w : Word) : Byte := crc8 [w.extractLsb' 8 8, w.extractLsb' 0 8]

/-- A received 3-byte group, data_hi first, passes its check (R78, R84). -/
def groupValid (g : BitVec 24) : Prop := crc8 [g.extractLsb' 16 8, g.extractLsb' 8 8] = g.extractLsb' 0 8

/-- How many bits of a pattern are 1. -/
def weight (e : BitVec 24) : Nat := ((List.range 24).filter fun i => e.getLsbD i).length

/-- Byte `i` of a byte sequence. -/
def nth (bytes : List Byte) (i : Nat) : Byte := bytes[i]?.getD 0

/-- The compare of group `i` of a response given as bytes (R105). -/
def passes (bytes : List Byte) (i : Nat) : Bool :=
  crc8 [nth bytes (3 * i), nth bytes (3 * i + 1)] == nth bytes (3 * i + 2)

/-- Word `i` of a response given as bytes (R64). -/
def word (bytes : List Byte) (i : Nat) : Word := nth bytes (3 * i) ++ nth bytes (3 * i + 1)

/-- The engine waits for the bytes of the BusRead of command `c` (R99, R102): what R104 to R111 start from. -/
def awaitingRead (s : State) (c : Command) : Prop :=
  s.phase = .rx ∧ s.lastCmd = c.descriptor.opcode ∧ s.rxLen.toNat = 3 * c.descriptor.nrx

/-- The elements the start step cleared are still clear (R99; part of `EngineInv` in the phase RX). -/
def cleared (s : State) : Prop :=
  s.rxBuf = #v[0, 0, 0, 0, 0, 0, 0, 0, 0] ∧ s.crcOk = 0 ∧ s.err = .ok ∧ s.res0 = 0 ∧ s.res1 = 0 ∧ s.res2 = 0

/-- RXBUF with received bytes at its start (R104). -/
def received (s : State) (bytes : List Byte) : Vector Byte 9 := Vector.ofFn fun i => bytes[i.val]?.getD s.rxBuf[i]

/-- R117: the code and data of a whole EXEC of command `c`, from the write count and the bytes read. -/
def wholeExec (c : Command) (k : Nat) (bytes : List Byte) : Response :=
  let d := c.descriptor
  if k < 2 + 3 * d.ntx then ⟨.transport, 0⟩
  else if d.nrx = 0 then ⟨.ok, 0⟩
  else if bytes.length < 3 * d.nrx then ⟨.transport, 0⟩
  else if ((List.range d.nrx).all fun i => passes bytes i) = false then ⟨.checksum, 0⟩
  else
    match d.kind with
    | .none     => ⟨.ok, 0⟩
    | .pair     => ⟨.ok, 0#32 ++ word bytes 0 ++ word bytes 1⟩
    | .single   => ⟨.ok, (word bytes 0).zeroExtend 64⟩
    | .serial48 => ⟨.ok, 0#16 ++ word bytes 0 ++ word bytes 1 ++ word bytes 2⟩
    | .selfTest => if nth bytes 0 = 0xD4 ∧ nth bytes 1 = 0x00 then ⟨.ok, 1⟩ else ⟨.functional, 0⟩

/-- An EXEC of `c` is about to be accepted on an open link, and the environment answers it with `k` and `bytes`. -/
def runsExec (s : State) (w : ReqWord) (c : Command) (p0 p1 : Word) (k : Nat) (bytes : List Byte) : Prop :=
  s.phase = .idle ∧ s.port = some w ∧ decode w = .instr (execInstr c p0 p1) ∧ s.link = true ∧
  (∃ rest, s.env = .writeCount k :: .waitEnd :: .readBytes bytes :: rest) ∧
  k ≤ 2 + 3 * c.descriptor.ntx ∧ bytes.length ≤ 3 * c.descriptor.nrx

/-- The bus writes in a list of events. -/
def writesIn (es : List Event) : Nat := es.countP fun e => match e with | .writeIssued _ _ => true | _ => false

/-- The bus reads in a list of events. -/
def readsIn (es : List Event) : Nat := es.countP fun e => match e with | .readIssued _ _ => true | _ => false

/-- The responses in a list of events. -/
def responsesIn (es : List Event) : Nat := es.countP fun e => match e with | .responded _ => true | _ => false

/-- The acceptances in a list of events. -/
def acceptancesIn (es : List Event) : Nat := es.countP fun e => match e with | .accepted _ => true | _ => false

/-- The instruction is one of the four CRC requests. -/
def isCrcRequest (i : Instr) : Prop :=
  i = .crcInit ∨ (∃ a, i = .crcUpdate a) ∨ (∃ hi lo, i = .crcGen hi lo) ∨ (∃ hi lo e, i = .crcVerify hi lo e)

/-- The instruction is an EXEC. -/
def isExec (i : Instr) : Prop := ∃ c p0 p1, i = execInstr c p0 p1

/-- The register map of R28: numbers with their contents. -/
def registerMap (s : State) : List (Byte × Word) :=
  [(0x00, statusReg s), (0x01, s.crc.zeroExtend 16), (0x02, s.lastCmd), (0x03, countsReg s), (0x04, s.res0),
   (0x05, s.res1), (0x06, s.res2)] ++
  ((List.range 9).map fun i => (BitVec.ofNat 8 (0x10 + i), (byteAt s.rxBuf i).zeroExtend 16)) ++
  ((List.range 8).map fun i => (BitVec.ofNat 8 (0x20 + i), (byteAt s.txBuf i).zeroExtend 16))

/-- The rational value of a binary64 given by its bits; none for NaN and the infinities. -/
def binary64 (h : BitVec 64) : Option ℚ :=
  let sign : ℚ := if h.toNat / 2 ^ 63 = 1 then -1 else 1
  let e := h.toNat / 2 ^ 52 % 2048
  let f : ℚ := (h.toNat % 2 ^ 52 : Nat)
  if e = 2047 then none
  else if e = 0 then some (sign * f / 2 ^ 1074)
  else some (sign * (2 ^ 52 + f) * 2 ^ e / 2 ^ 1075)

end Sys2Proof.Claims

open Sys2Proof.Claims

/-! ## Encoding -/

/-- R55 to R57, R71: the word of every instruction, with every operand at every value, decodes to that instruction. -/
def Obligations.DecodeEncodeRoundTrip : Prop := ∀ i : Instr, decode (encode i) = .instr i

/-- R55 to R57: a word that decodes to an instruction is that instruction's one word. -/
def Obligations.EncodeDecodeRoundTrip : Prop := ∀ (w : ReqWord) (i : Instr), decode w = .instr i → encode i = w

/-- 95_test_vectors.md 2.2: words of every family of the table, and words that are refused. -/
def Obligations.SpecWordsDecode : Prop :=
  decode 0x0100000000000000 = .instr .crcInit ∧
  decode 0x02000000BE000000 = .instr (.crcUpdate 0xBE) ∧
  decode 0x04000000BEEF9200 = .instr (.crcVerify 0xBE 0xEF 0x92) ∧
  decode 0x1000000000000000 = .instr .linkOpen ∧
  decode 0x20201E8089738AAE = .instr (.cmdSetBaseline 0x8973 0x8AAE) ∧
  decode 0x2020614019800000 = .instr (.cmdSetHumidity 0x1980) ∧
  decode 0x2036820000000000 = .instr .cmdGetSerialId ∧
  decode 0x3000000003000000 = .instr (.regRead 0x03) ∧
  (∃ why, decode 0x0400000100BEEF92 = .malformed why) ∧
  (∃ why, decode 0x202003C000000000 = .malformed why) ∧
  decode 0x2020040000000000 = .invalidExec 0x2004 0 ∧
  decode 0x20201E4089730000 = .invalidExec 0x201E 1

/-- R118: CMDTAB, row by row: opcode, ntx, nrx, delay and decode kind. -/
def Obligations.CommandTableValues : Prop :=
  Command.init.descriptor = ⟨0x2003, 0, 0, Config.postWriteMs .init, .none⟩ ∧
  Command.measureAirQuality.descriptor = ⟨0x2008, 0, 2, 12, .pair⟩ ∧
  Command.measureRawSignals.descriptor = ⟨0x2050, 0, 2, 25, .pair⟩ ∧
  Command.getBaseline.descriptor = ⟨0x2015, 0, 2, 10, .pair⟩ ∧
  Command.setBaseline.descriptor = ⟨0x201E, 2, 0, Config.postWriteMs .setBaseline, .none⟩ ∧
  Command.setHumidity.descriptor = ⟨0x2061, 1, 0, Config.postWriteMs .setHumidity, .none⟩ ∧
  Command.selfTest.descriptor = ⟨0x2032, 0, 1, 220, .selfTest⟩ ∧
  Command.getFeatureSetVersion.descriptor = ⟨0x202F, 0, 1, 3, .single⟩ ∧
  Command.getSerialId.descriptor = ⟨0x3682, 0, 3, 1, .serial48⟩ ∧
  (∀ c : Command, (txLenOf c).toNat = 2 + 3 * c.descriptor.ntx ∧ (rxLenOf c).toNat = 3 * c.descriptor.nrx)

/-! ## Acceptance -/

/-- R95: an idle engine takes the word in its port and runs the instruction it decodes to. -/
def Obligations.StepRunsDecodedRequest : Prop :=
  ∀ (s : State) (w : ReqWord) (i : Instr), accepting s w → decode w = .instr i → step s = exec i (taken s w)

/-- R96: the decoder refuses exactly the words that are not `well_formed(REQ)`, and such a request is answered INVALID with
data 0 and writes no state element. Any other is dispatched: to its instruction, or (an EXEC only) to the validation of R97. -/
def Obligations.FormatCheckRefusesWithoutEffect : Prop :=
  (∀ w : ReqWord, w.wellFormed = false ↔ ∃ why, decode w = .malformed why) ∧
  (∀ (s : State) (w : ReqWord), accepting s w → w.wellFormed = false →
    step s = .next { taken s w with trace := .responded ⟨.invalid, 0⟩ :: (taken s w).trace }) ∧
  (∀ (s : State) (w : ReqWord), accepting s w → w.wellFormed = true →
    (∃ i, decode w = .instr i ∧ step s = exec i (taken s w)) ∨ (w >>> 56 = 0x20 ∧ ∃ cmd np, decode w = .invalidExec cmd np))

/-- R97 and R98: a well-formed EXEC runs exactly when its CMD is in CMDTAB with its NP and the link is open; otherwise it
completes INVALID, records it, makes no bus operation and keeps everything else. -/
def Obligations.ExecIsValidatedFirst : Prop :=
  ∀ (s : State) (w : ReqWord), accepting s w → w.wellFormed = true → w >>> 56 = 0x20 →
    (validExec w s → ∃ t, step s = .next t ∧ t.phase = .tx ∧ t.lastCmd = cmdOf w) ∧
    (¬ validExec w s → step s = .next (execRefused (taken s w)))

/-! ## The CRC engine -/

/-- R75: CRC_INIT sets CRC to 0xFF and answers (OK, 0xFF); no other element is written. -/
def Obligations.CrcInitRestartsCrc : Prop :=
  encode .crcInit = 0x0100000000000000 ∧
  ∀ s : State, s.phase = .idle →
    exec .crcInit s = .next { s with crc := 0xFF, trace := .responded ⟨.ok, 0xFF⟩ :: s.trace }

/-- R76: CRC_UPDATE folds its byte into CRC and answers the new CRC; no other element is written. -/
def Obligations.CrcUpdateFoldsByte : Prop :=
  ∀ a : Byte, encode (.crcUpdate a) = 0x02#8 ++ 0#24 ++ a ++ 0#8 ++ 0#8 ++ 0#8 ∧
    ∀ s : State, s.phase = .idle → exec (.crcUpdate a) s = .next { s with
      crc := crcUpdate s.crc a, trace := .responded ⟨.ok, (crcUpdate s.crc a).zeroExtend 64⟩ :: s.trace }

/-- R77: CRC_GENERATE sets CRC to crc8 of its two bytes whatever CRC was, and that is what CRC_INIT, CRC_UPDATE hi and
CRC_UPDATE lo leave in it. -/
def Obligations.CrcGenerateReplacesCrc : Prop :=
  ∀ hi lo : Byte, encode (.crcGen hi lo) = 0x03#8 ++ 0#24 ++ hi ++ lo ++ 0#8 ++ 0#8 ∧
    ∀ s : State, s.phase = .idle → exec (.crcGen hi lo) s = .next { s with
      crc := crc8 [hi, lo], trace := .responded ⟨.ok, (crc8 [hi, lo]).zeroExtend 64⟩ :: s.trace } ∧
    ∃ t₁ t₂ t₃, exec .crcInit s = .next t₁ ∧ exec (.crcUpdate hi) t₁ = .next t₂ ∧ exec (.crcUpdate lo) t₂ = .next t₃ ∧
      t₃.crc = crc8 [hi, lo]

/-- R78 and R80: CRC_VERIFY sets CRC to the computed value and answers 1 when it equals C, else 0; crc8 of the bytes always
matches, and nothing else does. -/
def Obligations.CrcVerifyReportsMatch : Prop :=
  (∀ hi lo e : Byte, encode (.crcVerify hi lo e) = 0x04#8 ++ 0#24 ++ hi ++ lo ++ e ++ 0#8) ∧
  (∀ (s : State) (hi lo e : Byte), s.phase = .idle →
    exec (.crcVerify hi lo e) s = .next { s with
      crc := crc8 [hi, lo], trace := .responded ⟨.ok, if crc8 [hi, lo] = e then 1 else 0⟩ :: s.trace }) ∧
  (∀ (s : State) (hi lo : Byte), s.phase = .idle →
    ∃ t, exec (.crcVerify hi lo (crc8 [hi, lo])) s = .next t ∧ lastResponse t = some ⟨.ok, 1⟩)

/-- R79: a CRC request writes CRC alone, answers OK, makes no bus operation, and does the same whatever LINK and PHASE are
(its completion leaves PHASE at IDLE, R113). -/
def Obligations.CrcRequestsTouchOnlyCrc : Prop :=
  ∀ (i : Instr) (s : State), isCrcRequest i →
    ∃ (c : Byte) (d : BitVec 64), ∀ (b : Bool) (p : Phase),
      exec i { s with link := b, phase := p } =
        .next { s with link := b, phase := .idle, crc := c, trace := .responded ⟨.ok, d⟩ :: s.trace }

/-- R74: crc_update is the XOR of the byte and eight times "test the top bit, shift left in 8 bits, XOR 0x31 if it was set",
here in plain numbers. -/
def Obligations.CrcUpdateIsEightShifts : Prop :=
  ∀ c b : Byte, (crcUpdate c b).toNat = crcLoopStep^[8] (c ^^^ b).toNat

/-- R81: every error pattern of 1, 2 or 3 bits makes a valid group fail, flipping a bit of a word changes its CRC, and some
pattern of 4 bits goes undetected. -/
def Obligations.CrcDetectsThreeBitErrors : Prop :=
  (∀ g e : BitVec 24, groupValid g → 1 ≤ weight e → weight e ≤ 3 → ¬ groupValid (g ^^^ e)) ∧
  (∀ (w : Word) (i : Nat), i < 16 → wordCrc (w ^^^ (1#16 <<< i)) ≠ wordCrc w) ∧
  (∃ g e : BitVec 24, groupValid g ∧ weight e = 4 ∧ groupValid (g ^^^ e))

/-- R82: crc8 over a whole group is 0 for the right CRC byte, and for no other. -/
def Obligations.CrcZeroResidue : Prop :=
  ∀ hi lo e : Byte, crc8 [hi, lo, e] = 0 ↔ e = crc8 [hi, lo]

/-- R83: crc8 is affine on words, with constant crc8([0x00, 0x00]) = 0x81. -/
def Obligations.CrcIsAffine : Prop :=
  crc8 [0x00, 0x00] = 0x81 ∧ ∀ x y : Word, wordCrc (x ^^^ y) = wordCrc x ^^^ wordCrc y ^^^ 0x81

/-! ## The link -/

/-- R85: LINK_OPEN on a closed link goes to BIND and binds to 0x58; the answer opens the link or is TRANSPORT, and without one
nothing changes; on an open link it is INVALID without a bus operation. -/
def Obligations.LinkOpenBindsClosedLink : Prop :=
  encode .linkOpen = 0x1000000000000000 ∧
  (∀ s : State, s.link = false →
    exec .linkOpen s = .next { s with phase := .bind, trace := .bindIssued Config.busId 0x58 :: s.trace }) ∧
  (∀ s : State, s.link = true → s.phase = .idle →
    exec .linkOpen s = .next { s with err := .invalid, trace := .responded ⟨.invalid, 0⟩ :: s.trace }) ∧
  (∀ s : State, s.phase = .bind → nextInput s = .bindAnswer true →
    step s = .next { dropInput s with
      link := true, err := .ok, phase := .idle, trace := .responded ⟨.ok, 0⟩ :: .bindAnswered true :: s.trace }) ∧
  (∀ s : State, s.phase = .bind → nextInput s = .bindAnswer false →
    step s = .next { dropInput s with
      err := .transport, phase := .idle, trace := .responded ⟨.transport, 0⟩ :: .bindAnswered false :: s.trace }) ∧
  (∀ s : State, s.phase = .bind → nextInput s = .silent → step s = .next (dropInput s))

/-- R86: LINK_CLOSE releases an open link, sets ERR to OK and keeps everything else; on a closed link only ERR is written. -/
def Obligations.LinkCloseReleases : Prop :=
  encode .linkClose = 0x1100000000000000 ∧
  (∀ s : State, s.link = true → s.phase = .idle →
    exec .linkClose s = .next { s with
      link := false, err := .ok, trace := .responded ⟨.ok, 0⟩ :: .released :: s.trace }) ∧
  (∀ s : State, s.link = false → s.phase = .idle →
    exec .linkClose s = .next { s with err := .ok, trace := .responded ⟨.ok, 0⟩ :: s.trace })

/-! ## The start of an EXEC -/

/-- R99, R100, R119 to R122, R125 to R127: the seven EXEC requests without payload start on an open link: every element of the
last exchange is cleared, TXBUF is the opcode, and its two bytes are written to 0x58. On a closed link they are refused. -/
def Obligations.BareCommandsStart : Prop :=
  ∀ (i : Instr) (cmd : Word) (nrx : Nat), (i, cmd, nrx) ∈ bareCommands →
    (∀ s : State, s.link = true → exec i s = .next
      (started s cmd #v[cmd.extractLsb' 8 8, cmd.extractLsb' 0 8, 0, 0, 0, 0, 0, 0]
        [cmd.extractLsb' 8 8, cmd.extractLsb' 0 8] 2 (BitVec.ofNat 4 (3 * nrx)))) ∧
    (∀ s : State, s.phase = .idle → s.link = false → exec i s = .next (execRefused s))

/-- R99, R100, R123: EXEC CMD_SET_BASELINE starts with the frame 20 1E, P0 and its CRC, P1 and its CRC. -/
def Obligations.SetBaselineStarts : Prop :=
  ∀ p0 p1 : Word,
    (∀ s : State, s.link = true → exec (.cmdSetBaseline p0 p1) s = .next
      (started s 0x201E
        #v[0x20, 0x1E, p0.extractLsb' 8 8, p0.extractLsb' 0 8, wordCrc p0, p1.extractLsb' 8 8, p1.extractLsb' 0 8, wordCrc p1]
        [0x20, 0x1E, p0.extractLsb' 8 8, p0.extractLsb' 0 8, wordCrc p0, p1.extractLsb' 8 8, p1.extractLsb' 0 8, wordCrc p1]
        8 0)) ∧
    (∀ s : State, s.phase = .idle → s.link = false → exec (.cmdSetBaseline p0 p1) s = .next (execRefused s))

/-- R99, R100, R124: EXEC CMD_SET_HUMIDITY starts with the frame 20 61, P0 and its CRC. -/
def Obligations.SetHumidityStarts : Prop :=
  ∀ p0 : Word,
    (∀ s : State, s.link = true → exec (.cmdSetHumidity p0) s = .next
      (started s 0x2061 #v[0x20, 0x61, p0.extractLsb' 8 8, p0.extractLsb' 0 8, wordCrc p0, 0, 0, 0]
        [0x20, 0x61, p0.extractLsb' 8 8, p0.extractLsb' 0 8, wordCrc p0] 5 0)) ∧
    (∀ s : State, s.phase = .idle → s.link = false → exec (.cmdSetHumidity p0) s = .next (execRefused s))

/-! ## The phases of an EXEC -/

/-- R101: the count decides: a short write is TRANSPORT with no wait and no read, a full one starts the command's Wait. -/
def Obligations.WriteCountDecidesWait : Prop :=
  ∀ (s : State) (c : Command) (k : Nat), s.phase = .tx → s.lastCmd = c.descriptor.opcode →
    nextInput s = .writeCount k → k ≤ s.txLen.toNat →
    (k < s.txLen.toNat → step s = .next { dropInput s with
      txCount := BitVec.ofNat 4 k, err := .transport, phase := .idle,
      trace := .responded ⟨.transport, 0⟩ :: .writeAnswered k :: s.trace }) ∧
    (k = s.txLen.toNat → step s = .next { dropInput s with
      txCount := s.txLen, waitMin := c.descriptor.delayMs, phase := .wait,
      trace := .waitStarted c.descriptor.delayMs :: .writeAnswered k :: s.trace })

/-- R102, R107, R112: when the Wait ends a command without response completes with its ERR, data 0 and a valid (empty)
result; any other issues the BusRead of RX_LEN bytes. -/
def Obligations.WaitEndReadsOrCompletes : Prop :=
  ∀ s : State, s.phase = .wait → nextInput s = .waitEnd →
    (s.rxLen = 0 → step s = .next { dropInput s with
      resultValid := true, phase := .idle, trace := .responded ⟨s.err, 0⟩ :: .waitEnded :: s.trace }) ∧
    (s.rxLen ≠ 0 → step s = .next { dropInput s with
      phase := .rx, trace := .readIssued 0x58 s.rxLen.toNat :: .waitEnded :: s.trace })

/-- R104: a short read is TRANSPORT: the prefix and its length are kept, nothing is checked or decoded. A read in full
completes the EXEC in the same step, with all bytes in RXBUF. -/
def Obligations.ShortReadKeepsPrefix : Prop :=
  ∀ (s : State) (c : Command) (bytes : List Byte), awaitingRead s c → nextInput s = .readBytes bytes →
    (bytes.length < s.rxLen.toNat → step s = .next { dropInput s with
      rxBuf := received s bytes, rxCount := BitVec.ofNat 4 bytes.length, err := .transport, phase := .idle,
      trace := .responded ⟨.transport, 0⟩ :: .readAnswered bytes :: s.trace }) ∧
    (bytes.length = s.rxLen.toNat → ∃ (t : State) (r : Response), step s = .next t ∧ t.phase = .idle ∧
      t.rxBuf = received s bytes ∧ t.rxCount = s.rxLen ∧
      t.trace = .responded r :: .readAnswered bytes :: s.trace)

/-- R105: every group of a full response is checked, whether or not an earlier one failed: CRC_OK bit i is group i's verdict. -/
def Obligations.EveryGroupIsChecked : Prop :=
  ∀ (s : State) (c : Command) (bytes : List Byte), awaitingRead s c → nextInput s = .readBytes bytes →
    bytes.length = s.rxLen.toNat →
    ∃ t, step s = .next t ∧
      ∀ i, i < 3 → t.crcOk.getLsbD i = if i < c.descriptor.nrx then passes bytes i else s.crcOk.getLsbD i

/-- R106: one failing group makes the EXEC CHECKSUM with data 0 and nothing decoded, on every command; RXBUF keeps the bytes. -/
def Obligations.ChecksumFailureIsHard : Prop :=
  ∀ (s : State) (c : Command) (bytes : List Byte) (i : Nat), awaitingRead s c → nextInput s = .readBytes bytes →
    bytes.length = s.rxLen.toNat → i < c.descriptor.nrx → passes bytes i = false →
    ∃ v : BitVec 3, (∀ j, j < 3 → v.getLsbD j = if j < c.descriptor.nrx then passes bytes j else s.crcOk.getLsbD j) ∧
      step s = .next { dropInput s with
        rxBuf := received s bytes, rxCount := s.rxLen, crcOk := v, err := .checksum, phase := .idle,
        trace := .responded ⟨.checksum, 0⟩ :: .readAnswered bytes :: s.trace }

/-- R108, R120 to R122: the two-word commands. -/
def Obligations.PairResponseDecodes : Prop :=
  ∀ (s : State) (h₀ l₀ h₁ l₁ : Byte), s.phase = .rx → s.lastCmd ∈ [0x2008#16, 0x2050#16, 0x2015#16] → s.rxLen = 6 →
    cleared s → nextInput s = .readBytes [h₀, l₀, crc8 [h₀, l₀], h₁, l₁, crc8 [h₁, l₁]] →
    step s = .next { dropInput s with
      rxBuf := #v[h₀, l₀, crc8 [h₀, l₀], h₁, l₁, crc8 [h₁, l₁], 0, 0, 0], rxCount := 6, crcOk := 3,
      res0 := h₀ ++ l₀, res1 := h₁ ++ l₁, resultValid := true, phase := .idle,
      trace := .responded ⟨.ok, 0#32 ++ (h₀ ++ l₀) ++ (h₁ ++ l₁)⟩ ::
        .readAnswered [h₀, l₀, crc8 [h₀, l₀], h₁, l₁, crc8 [h₁, l₁]] :: s.trace }

/-- R109, R126: the feature-set version. -/
def Obligations.SingleResponseDecodes : Prop :=
  ∀ (s : State) (h₀ l₀ : Byte), s.phase = .rx → s.lastCmd = 0x202F → s.rxLen = 3 →
    cleared s → nextInput s = .readBytes [h₀, l₀, crc8 [h₀, l₀]] →
    step s = .next { dropInput s with
      rxBuf := #v[h₀, l₀, crc8 [h₀, l₀], 0, 0, 0, 0, 0, 0], rxCount := 3, crcOk := 1,
      res0 := h₀ ++ l₀, resultValid := true, phase := .idle,
      trace := .responded ⟨.ok, (h₀ ++ l₀).zeroExtend 64⟩ :: .readAnswered [h₀, l₀, crc8 [h₀, l₀]] :: s.trace }

/-- R110, R127: the serial id, three words, most significant first, zero-extended. -/
def Obligations.SerialResponseDecodes : Prop :=
  ∀ (s : State) (h₀ l₀ h₁ l₁ h₂ l₂ : Byte), s.phase = .rx → s.lastCmd = 0x3682 → s.rxLen = 9 → cleared s →
    nextInput s = .readBytes [h₀, l₀, crc8 [h₀, l₀], h₁, l₁, crc8 [h₁, l₁], h₂, l₂, crc8 [h₂, l₂]] →
    step s = .next { dropInput s with
      rxBuf := #v[h₀, l₀, crc8 [h₀, l₀], h₁, l₁, crc8 [h₁, l₁], h₂, l₂, crc8 [h₂, l₂]], rxCount := 9, crcOk := 7,
      res0 := h₀ ++ l₀, res1 := h₁ ++ l₁, res2 := h₂ ++ l₂, resultValid := true, phase := .idle,
      trace := .responded ⟨.ok, 0#16 ++ (h₀ ++ l₀) ++ (h₁ ++ l₁) ++ (h₂ ++ l₂)⟩ ::
        .readAnswered [h₀, l₀, crc8 [h₀, l₀], h₁, l₁, crc8 [h₁, l₁], h₂, l₂, crc8 [h₂, l₂]] :: s.trace }

/-- R111, R125: the self-test passes exactly on D4 00; any other word with a right CRC is FUNCTIONAL with a valid result. -/
def Obligations.SelfTestVerdict : Prop :=
  ∀ (s : State) (h₀ l₀ : Byte), s.phase = .rx → s.lastCmd = 0x2032 → s.rxLen = 3 →
    cleared s → nextInput s = .readBytes [h₀, l₀, crc8 [h₀, l₀]] →
    (h₀ = 0xD4 ∧ l₀ = 0x00 → step s = .next { dropInput s with
      rxBuf := #v[0xD4, 0x00, 0xC6, 0, 0, 0, 0, 0, 0], rxCount := 3, crcOk := 1, res0 := 0xD400, stPass := true,
      resultValid := true, phase := .idle,
      trace := .responded ⟨.ok, 1⟩ :: .readAnswered [0xD4, 0x00, 0xC6] :: s.trace }) ∧
    (¬ (h₀ = 0xD4 ∧ l₀ = 0x00) → step s = .next { dropInput s with
      rxBuf := #v[h₀, l₀, crc8 [h₀, l₀], 0, 0, 0, 0, 0, 0], rxCount := 3, crcOk := 1, res0 := h₀ ++ l₀,
      stPass := false, err := .functional, resultValid := true, phase := .idle,
      trace := .responded ⟨.functional, 0⟩ :: .readAnswered [h₀, l₀, crc8 [h₀, l₀]] :: s.trace })

/-! ## Whole EXECs -/

/-- R117, R141: the steps of an EXEC compute what the whole-EXEC function says: its code and data, in at most four steps. -/
def Obligations.WholeExecFollowsSequence : Prop :=
  ∀ (s : State) (w : ReqWord) (c : Command) (p0 p1 : Word) (k : Nat) (bytes : List Byte),
    runsExec s w c p0 p1 k bytes →
    ∃ (n : Nat) (t : State), 2 ≤ n ∧ n ≤ 4 ∧ Sys2Proof.core.run n s = .next t ∧ t.phase = .idle ∧ t.port = none ∧
      lastResponse t = some (wholeExec c k bytes) ∧ t.err = (wholeExec c k bytes).err ∧
      t.lastCmd = c.descriptor.opcode ∧ t.link = true ∧ t.crc = s.crc ∧
      (t.resultValid = true ↔ (wholeExec c k bytes).err = .ok ∨ (wholeExec c k bytes).err = .functional)

/-- R116: a refused EXEC makes no bus operation; an accepted one makes exactly one BusWrite, and exactly one BusRead if the
write was complete and the command has a response, else none. -/
def Obligations.OneWriteAtMostOneRead : Prop :=
  (∀ (s : State) (w : ReqWord), accepting s w → w.wellFormed = false ∨ (w >>> 56 = 0x20 ∧ ¬ validExec w s) →
    ∃ t, step s = .next t ∧ t.phase = .idle ∧ t.trace = .responded ⟨.invalid, 0⟩ :: .accepted w :: s.trace) ∧
  (∀ (s : State) (w : ReqWord) (c : Command) (p0 p1 : Word) (k : Nat) (bytes : List Byte),
    runsExec s w c p0 p1 k bytes →
    ∃ (n : Nat) (t : State) (new : List Event), n ≤ 4 ∧ Sys2Proof.core.run n s = .next t ∧ t.phase = .idle ∧
      t.trace = new ++ s.trace ∧ writesIn new = 1 ∧
      readsIn new = if k = 2 + 3 * c.descriptor.ntx ∧ 0 < c.descriptor.nrx then 1 else 0)

/-- R51, R123: all the events of a CMD_SET_BASELINE whose write is complete, in order. -/
def Obligations.SetBaselineTraffic : Prop :=
  ∀ (s : State) (w : ReqWord) (p0 p1 : Word) (bytes : List Byte), runsExec s w .setBaseline p0 p1 8 bytes →
    ∃ t, Sys2Proof.core.run 3 s = .next t ∧ t.phase = .idle ∧ t.resultValid = true ∧ t.res0 = 0 ∧ t.res1 = 0 ∧ t.res2 = 0 ∧
      t.trace =
        [.responded ⟨.ok, 0⟩, .waitEnded, .waitStarted (Config.postWriteMs .setBaseline), .writeAnswered 8,
         .writeIssued 0x58 [0x20, 0x1E, p0.extractLsb' 8 8, p0.extractLsb' 0 8, wordCrc p0, p1.extractLsb' 8 8,
           p1.extractLsb' 0 8, wordCrc p1],
         .accepted w] ++ s.trace

/-- R51, R52: every step extends the trace, and does so along the order of events: the phase stays where the trace has led. -/
def Obligations.EventsFollowOrder : Prop :=
  ∀ s t : State, step s = .next t → (∃ new : List Event, t.trace = new ++ s.trace) ∧ (Ordered s → Ordered t)

/-- R41, R62, R63, R69: whatever the engine puts on the bus goes to 0x58; a write is the frame of a command of CMDTAB with its
number of payload words and right CRCs, a read has a command's response length. -/
def Obligations.BusTrafficIsLawful : Prop :=
  ∀ s t : State, EngineInv s → LawfulTrace s → step s = .next t → LawfulTrace t

/-! ## The invariant -/

/-- R33: the state after reset meets the invariant. That its trace is ordered and lawful is the model's choice: it is empty at
reset (log 12). -/
def Obligations.ResetMeetsInvariant : Prop := EngineInv State.reset ∧ Ordered State.reset ∧ LawfulTrace State.reset

/-- R16 to R26, R30, R31: every step keeps the meaning of the state elements. -/
def Obligations.StepKeepsInvariant : Prop := ∀ s t : State, EngineInv s → step s = .next t → EngineInv t

/-- R10, R143: the engine has no traps: from a state that meets the invariant every step answers a next state. -/
def Obligations.StepNeverStops : Prop := ∀ s : State, EngineInv s → ∃ t, step s = .next t

/-! ## Who writes what -/

/-- R18: only the four CRC requests and reset write CRC. -/
def Obligations.CrcRegisterWriters : Prop :=
  ∀ s t : State, step s = .next t → t.crc ≠ s.crc →
    t.trace = .resetTaken :: s.trace ∨
    ∃ w i, accepting s w ∧ decode w = .instr i ∧ isCrcRequest i

/-- R15: only LINK_OPEN (when its bind is answered ok), LINK_CLOSE and reset write LINK. -/
def Obligations.LinkWriters : Prop :=
  ∀ s t : State, step s = .next t → t.link ≠ s.link →
    (t.trace = .resetTaken :: s.trace ∧ t.link = false) ∨
    (s.phase = .bind ∧ nextInput s = .bindAnswer true ∧ t.link = true) ∨
    (∃ w, accepting s w ∧ decode w = .instr .linkClose ∧ t.link = false)

/-- R34: what each request may write at its acceptance: every element not named keeps its value. The port is emptied (R95) and
the events are recorded; how they are is the model's choice (log 6). -/
def Obligations.RequestsWriteOnlyTheirElements : Prop :=
  ∀ (s t : State) (w : ReqWord), accepting s w → step s = .next t →
    (∀ i, decode w = .instr i → isCrcRequest i → ∃ (c : Byte) (d : BitVec 64),
      t = { s with crc := c, port := none, trace := .responded ⟨.ok, d⟩ :: .accepted w :: s.trace }) ∧
    (decode w = .instr .linkOpen → s.link = false →
      t = { s with phase := .bind, port := none, trace := .bindIssued Config.busId 0x58 :: .accepted w :: s.trace }) ∧
    (decode w = .instr .linkOpen → s.link = true →
      t = { s with err := .invalid, port := none, trace := .responded ⟨.invalid, 0⟩ :: .accepted w :: s.trace }) ∧
    (decode w = .instr .linkClose → t = { s with
      link := false, err := .ok, port := none,
      trace := .responded ⟨.ok, 0⟩ :: ((if s.link then [.released] else []) ++ .accepted w :: s.trace) }) ∧
    (∀ n, decode w = .instr (.regRead n) → ∃ r : Response,
      t = { s with port := none, trace := .responded r :: .accepted w :: s.trace }) ∧
    (∀ why, decode w = .malformed why →
      t = { s with port := none, trace := .responded ⟨.invalid, 0⟩ :: .accepted w :: s.trace }) ∧
    (∀ cmd np, decode w = .invalidExec cmd np → t = execRefused (taken s w)) ∧
    (∀ i, decode w = .instr i → isExec i → s.link = false → t = execRefused (taken s w)) ∧
    (∀ i, decode w = .instr i → isExec i → s.link = true →
      t.crc = s.crc ∧ t.link = true ∧ t.waitMin = s.waitMin ∧ t.env = s.env ∧ t.draws = s.draws ∧ t.port = none ∧
      t.phase = .tx ∧ ∃ bytes : List Byte, t.trace = .writeIssued 0x58 bytes :: .accepted w :: s.trace)

/-- R115: an EXEC never writes CRC or LINK, and never reads CRC: with another CRC it does the same. -/
def Obligations.ExecIgnoresCrcRegister : Prop :=
  ∀ s t : State,
    ((∃ w i, accepting s w ∧ decode w = .instr i ∧ isExec i) ∨ (execInProgress s.phase ∧ nextInput s ≠ .reset)) →
    step s = .next t →
    t.crc = s.crc ∧ t.link = s.link ∧ ∀ c : Byte, step { s with crc := c } = .next { t with crc := c }

/-! ## Waiting, hanging and reset -/

/-- R95, R35: while a request is in progress a request in the port stays there and none is accepted. -/
def Obligations.BusyEngineHoldsRequest : Prop :=
  ∀ (s t : State) (w : ReqWord), s.phase ≠ .idle → s.port = some w → nextInput s ≠ .reset → step s = .next t →
    t.port = some w ∧ acceptancesIn t.trace = acceptancesIn s.trace

/-- R91: while the bus does not answer, the engine stays in its phase with everything it holds, for any number of steps; only
the answer to the operation in progress, or reset, leaves the phase. -/
def Obligations.SilentBusHangs : Prop :=
  (∀ (n : Nat) (s : State) (rest : List EnvInput), s.phase ≠ .idle → s.env = List.replicate n .silent ++ rest →
    Sys2Proof.core.run n s = .next { s with env := rest }) ∧
  (∀ s t : State, s.phase = .bind ∨ s.phase = .tx ∨ s.phase = .rx → step s = .next t → t.phase ≠ s.phase →
    nextInput s = .reset ∨ (s.phase = .bind ∧ ∃ ok, nextInput s = .bindAnswer ok) ∨
    (s.phase = .tx ∧ ∃ k, nextInput s = .writeCount k) ∨ (s.phase = .rx ∧ ∃ bytes, nextInput s = .readBytes bytes))

/-- R142, R153, R154: reset takes effect in every phase and before a waiting request; every element takes its reset value, the
request is discarded and gets no response. (What the environment does next and the history go on, and no BusRelease is
recorded: the model's choice, logs 1, 6, 12 and 17.) -/
def Obligations.ResetTakesEffect : Prop :=
  ∀ s : State, nextInput s = .reset → step s = .next
      { link := false, phase := .idle, lastCmd := 0, crc := 0xFF, txBuf := #v[0, 0, 0, 0, 0, 0, 0, 0], txLen := 0,
        txCount := 0, rxBuf := #v[0, 0, 0, 0, 0, 0, 0, 0, 0], rxLen := 0, rxCount := 0, crcOk := 0, err := .ok,
        resultValid := false, stPass := false, res0 := 0, res1 := 0, res2 := 0, waitMin := 0, port := none,
        env := (dropInput s).env, draws := (dropInput s).draws, trace := .resetTaken :: s.trace }

/-- R33: the value of every element after reset. -/
def Obligations.ResetStateValues : Prop :=
  State.reset.link = false ∧ State.reset.phase = .idle ∧ State.reset.lastCmd = 0 ∧ State.reset.crc = 0xFF ∧
  State.reset.txBuf = #v[0, 0, 0, 0, 0, 0, 0, 0] ∧ State.reset.txLen = 0 ∧ State.reset.txCount = 0 ∧
  State.reset.rxBuf = #v[0, 0, 0, 0, 0, 0, 0, 0, 0] ∧ State.reset.rxLen = 0 ∧ State.reset.rxCount = 0 ∧
  State.reset.crcOk = 0 ∧ State.reset.err = .ok ∧ State.reset.resultValid = false ∧ State.reset.stPass = false ∧
  State.reset.res0 = 0 ∧ State.reset.res1 = 0 ∧ State.reset.res2 = 0 ∧ State.reset.waitMin = 0 ∧ State.reset.port = none

/-! ## Completions and errors -/

/-- R113: a completion sets PHASE to IDLE, a step gives at most one response, and a request in progress leaves its phases for
IDLE only by its response or by reset. -/
def Obligations.CompletionReturnsToIdle : Prop :=
  ∀ s t : State, step s = .next t →
    (∀ r, completesWith s t r → t.phase = .idle) ∧
    responsesIn t.trace ≤ responsesIn s.trace + 1 ∧
    (s.phase ≠ .idle → t.phase = .idle → t.trace = .resetTaken :: s.trace ∨ ∃ r, completesWith s t r)

/-- R58: DATA is 0 whenever the code is TRANSPORT, CHECKSUM or INVALID. -/
def Obligations.ErrorResponsesCarryZeroData : Prop :=
  ∀ (s t : State) (r : Response), step s = .next t → completesWith s t r →
    r.err = .transport ∨ r.err = .checksum ∨ r.err = .invalid → EngineInv s → r.data = 0

/-- R136: TRANSPORT is raised exactly by a failed bind, a short write and a short read; ERR says so, and the counts and the
received prefix are recorded. -/
def Obligations.TransportCauses : Prop :=
  ∀ s t : State, EngineInv s → step s = .next t →
    ((∃ d, completesWith s t ⟨.transport, d⟩) ↔
      (s.phase = .bind ∧ nextInput s = .bindAnswer false) ∨
      (s.phase = .tx ∧ ∃ k, nextInput s = .writeCount k ∧ k < s.txLen.toNat) ∨
      (s.phase = .rx ∧ ∃ bytes, nextInput s = .readBytes bytes ∧ bytes.length < s.rxLen.toNat)) ∧
    ((∃ d, completesWith s t ⟨.transport, d⟩) → t.err = .transport ∧
      (∀ k, s.phase = .tx → nextInput s = .writeCount k → t.txCount.toNat = k) ∧
      (∀ bytes, s.phase = .rx → nextInput s = .readBytes bytes →
        t.rxCount.toNat = bytes.length ∧ ∀ i, i < bytes.length → byteAt t.rxBuf i = nth bytes i))

/-- R137: CHECKSUM is raised exactly when all RX_LEN bytes arrive and at least one group fails; ERR, the verdict of each group
in CRC_OK and all bytes in RXBUF are recorded. -/
def Obligations.ChecksumCauses : Prop :=
  ∀ s t : State, EngineInv s → step s = .next t →
    ((∃ d, completesWith s t ⟨.checksum, d⟩) ↔
      s.phase = .rx ∧ ∃ bytes, nextInput s = .readBytes bytes ∧ s.rxLen.toNat ≤ bytes.length ∧
        ∃ i, 3 * i + 2 < s.rxLen.toNat ∧ passes bytes i = false) ∧
    (∀ bytes, (∃ d, completesWith s t ⟨.checksum, d⟩) → nextInput s = .readBytes bytes →
      t.err = .checksum ∧ (∀ i, i < s.rxLen.toNat → byteAt t.rxBuf i = nth bytes i) ∧
      ∀ i, i < 3 → (t.crcOk.getLsbD i = true ↔ 3 * i + 2 < s.rxLen.toNat ∧ passes bytes i = true))

/-- R139, R135: FUNCTIONAL is raised exactly when a self-test receives its group in full, the group passes and the data is not
D4 00; then ST_PASS is 0, RESULT_VALID 1 and RES0 the word. -/
def Obligations.FunctionalCauses : Prop :=
  ∀ s t : State, EngineInv s → step s = .next t →
    ((∃ d, completesWith s t ⟨.functional, d⟩) ↔
      s.phase = .rx ∧ s.lastCmd = 0x2032 ∧ ∃ bytes, nextInput s = .readBytes bytes ∧ 3 ≤ bytes.length ∧
        passes bytes 0 = true ∧ word bytes 0 ≠ 0xD400) ∧
    (∀ bytes, (∃ d, completesWith s t ⟨.functional, d⟩) → nextInput s = .readBytes bytes →
      t.err = .functional ∧ t.stPass = false ∧ t.resultValid = true ∧ t.res0 = word bytes 0)

/-- R138: INVALID is raised exactly by a malformed word, an EXEC that is not valid, LINK_OPEN on an open link and REG_READ of
an unmapped number; ERR is set in the second and third case, RESULT_VALID cleared in the second, nothing recorded in the
others. -/
def Obligations.InvalidCauses : Prop :=
  ∀ s t : State, EngineInv s → step s = .next t →
    ((∃ d, completesWith s t ⟨.invalid, d⟩) ↔
      ∃ w, accepting s w ∧
        (w.wellFormed = false ∨ (w.wellFormed = true ∧ w >>> 56 = 0x20 ∧ ¬ validExec w s) ∨
         (decode w = .instr .linkOpen ∧ s.link = true) ∨
         (∃ n, decode w = .instr (.regRead n) ∧ ∀ v, (n, v) ∉ registerMap s))) ∧
    (∀ w, accepting s w → (∃ d, completesWith s t ⟨.invalid, d⟩) →
      (w.wellFormed = true ∧ w >>> 56 = 0x20 → t.err = .invalid ∧ t.resultValid = false) ∧
      (decode w = .instr .linkOpen → t.err = .invalid) ∧
      (w.wellFormed = false ∨ (∃ n, decode w = .instr (.regRead n)) → t = { s with port := none, trace := t.trace }))

/-! ## Reading registers -/

/-- R28, R114: REG_READ of a mapped number answers the register's contents, of an unmapped one INVALID; nothing is written. -/
def Obligations.RegReadReadsMap : Prop :=
  ∀ (s : State) (n : Byte), encode (.regRead n) = 0x30#8 ++ 0#24 ++ n ++ 0#8 ++ 0#8 ++ 0#8 ∧ (s.phase = .idle →
    (∀ v, (n, v) ∈ registerMap s →
      exec (.regRead n) s = .next { s with trace := .responded ⟨.ok, v.zeroExtend 64⟩ :: s.trace }) ∧
    ((7 ≤ n.toNat ∧ n.toNat ≤ 0x0F) ∨ (0x19 ≤ n.toNat ∧ n.toNat ≤ 0x1F) ∨ 0x28 ≤ n.toNat →
      exec (.regRead n) s = .next { s with trace := .responded ⟨.invalid, 0⟩ :: s.trace }))

/-- R29: the fields of STATUS, its reserved bits reading 0, the error numbers, 0 at reset; and the fields of COUNTS (R30). -/
def Obligations.StatusAndCountsLayout : Prop :=
  statusReg State.reset = 0 ∧ countsReg State.reset = 0 ∧ ∀ s : State,
    ((statusReg s).getLsbD 0 = s.link ∧ (statusReg s).getLsbD 1 = s.resultValid ∧ (statusReg s).getLsbD 2 = s.stPass ∧
     (statusReg s).getLsbD 3 = false ∧ (statusReg s).getLsbD 7 = false ∧ (statusReg s).extractLsb' 11 5 = 0 ∧
     (statusReg s).extractLsb' 8 3 = s.crcOk ∧
     ((statusReg s).extractLsb' 4 3).toNat =
       match s.err with | .ok => 0 | .transport => 1 | .checksum => 2 | .invalid => 3 | .functional => 4) ∧
    ((countsReg s).extractLsb' 0 4 = s.txCount ∧ (countsReg s).extractLsb' 4 4 = s.rxCount ∧
     (countsReg s).extractLsb' 8 4 = s.txLen ∧ (countsReg s).extractLsb' 12 4 = s.rxLen)

/-- R16: only an accepted EXEC or a LINK_OPEN on a closed link leaves IDLE. -/
def Obligations.IdleIsLeftByRequestsOnly : Prop :=
  ∀ s t : State, s.phase = .idle → step s = .next t → t.phase ≠ .idle →
    ∃ w i, accepting s w ∧ decode w = .instr i ∧
      ((i = .linkOpen ∧ s.link = false ∧ t.phase = .bind) ∨ (isExec i ∧ s.link = true ∧ t.phase = .tx))

/-! ## Host-side helpers -/

/-- R128, R129: for a binary64 with 0 <= h < 256, hum_pack is the integer part and the truncated fraction times 256, which is
floor(h * 256); outside the domain it has no value. That negative zero is in the domain is the model's reading (log 13). -/
def Obligations.HumPackTruncates : Prop :=
  ∀ h : BitVec 64,
    (∀ q : ℚ, binary64 h = some q → 0 ≤ q → q < 256 →
      humPack h = some (BitVec.ofNat 8 ⌊q⌋₊ ++ BitVec.ofNat 8 ⌊(q - ⌊q⌋₊) * 256⌋₊) ∧
      humPack h = some (BitVec.ofNat 16 ⌊q * 256⌋₊)) ∧
    (∀ q : ℚ, binary64 h = some q → q < 0 ∨ 256 ≤ q → humPack h = none) ∧
    (binary64 h = none → humPack h = none)

/-- R72, R129 to R133: the ten Facade operations. init sends CMD_INIT only after the open completed OK, and only init has a
second request; set_humidity outside hum_pack's domain sends nothing; each result is read from DATA as the table of R132 says;
an error is never replaced by a value. Which baseline is word 0 is open, but fixed (R7, log 10). -/
def Obligations.FacadeExpandsToRequests : Prop :=
  (facadeFirst .init = some .linkOpen ∧ facadeFirst .deinit = some .linkClose ∧
   facadeFirst .measureAirQuality = some .cmdMeasureAirQuality ∧
   facadeFirst .measureRawSignals = some .cmdMeasureRawSignals ∧
   facadeFirst .getBaseline = some .cmdGetBaseline ∧
   (∀ w0 w1 : Word, facadeFirst (.setBaseline w0 w1) = some (.cmdSetBaseline w0 w1)) ∧
   (∀ (h : BitVec 64) (w : Word), humPack h = some w → facadeFirst (.setHumidity h) = some (.cmdSetHumidity w)) ∧
   (∀ h : BitVec 64, humPack h = none → facadeFirst (.setHumidity h) = none) ∧
   facadeFirst (.setHumidity 0x4039800000000000) = some (.cmdSetHumidity 0x1980) ∧
   facadeFirst .selfTest = some .cmdSelfTest ∧
   facadeFirst .getFeatureSetVersion = some .cmdGetFeatureSetVersion ∧
   facadeFirst .getSerialId = some .cmdGetSerialId) ∧
  (∀ r : Response, facadeSecond .init r = if r.err = .ok then some .cmdInit else none) ∧
  (∀ (op : FacadeOp) (r : Response), op ≠ .init → facadeSecond op r = none) ∧
  (∀ (op : FacadeOp) (r : Response), r.err ≠ .ok → ¬ (op = .selfTest ∧ r.err = .functional) →
    facadeOutcome op r = .error r.err) ∧
  (∀ d : BitVec 64,
    (∀ op ∈ [FacadeOp.measureAirQuality, .measureRawSignals, .getBaseline],
      facadeOutcome op ⟨.ok, d⟩ = .value .ok (.pair (d.extractLsb' 16 16) (d.extractLsb' 0 16))) ∧
    facadeOutcome .getFeatureSetVersion ⟨.ok, d⟩ = .value .ok (.single (d.extractLsb' 0 16)) ∧
    facadeOutcome .getSerialId ⟨.ok, d⟩ = .value .ok (.serial d) ∧
    (∀ e : ErrCode, e = .ok ∨ e = .functional →
      facadeOutcome .selfTest ⟨e, d⟩ = .value e (.selfTest (d.getLsbD 0))) ∧
    facadeOutcome .init ⟨.ok, d⟩ = .value .ok .unit ∧ facadeOutcome .deinit ⟨.ok, d⟩ = .value .ok .unit ∧
    (∀ w0 w1 : Word, facadeOutcome (.setBaseline w0 w1) ⟨.ok, d⟩ = .value .ok .unit) ∧
    (∀ h : BitVec 64, facadeOutcome (.setHumidity h) ⟨.ok, d⟩ = .value .ok .unit)) ∧
  (∀ x y : Word, facadeOutcome .measureAirQuality ⟨.ok, 0#32 ++ x ++ y⟩ = .value .ok (.pair x y)) ∧
  ((∀ e v : Word, baselineWords e v = (e, v)) ∨ (∀ e v : Word, baselineWords e v = (v, e)))

/-! ## The request port -/

/-- R35, R95: a request HOST offers goes into an empty port, in every phase, and waits there; nothing else changes. That an
offer to a full port is no event is the model's choice (log 5). -/
def Obligations.OffersFillThePort : Prop :=
  (∀ (s : State) (w : ReqWord), s.port = none → nextInput s = .offer w →
    step s = .next { dropInput s with port := some w, trace := .offered w :: s.trace }) ∧
  (∀ (s : State) (v w : ReqWord), s.phase ≠ .idle → s.port = some v → nextInput s = .offer w →
    step s = .next (dropInput s))
end

