-- ==== Sys2Proof/Laws/Buffers.lean ====
section
/-!
SUPPORT. The buffers and the bits of CRC_OK: what reading them after a write gives.
-/
namespace Sys2Proof.Machine

theorem byteAt_bufWrite {n : Nat} (bytes : List Byte) (buf : Vector Byte n) (i : Nat) :
    byteAt (bufWrite bytes buf) i = if i < n then bytes[i]?.getD (byteAt buf i) else 0#8 := by
  unfold byteAt bufWrite
  by_cases h : i < n <;> simp [h]

theorem byteAt_replicate (n i : Nat) : byteAt (Vector.replicate n 0#8) i = 0#8 := by
  unfold byteAt
  by_cases h : i < n <;> simp [h]

/-- Two buffers are equal when they read alike at every index. -/
theorem buffer_ext {n : Nat} {a b : Vector Byte n} (h : ∀ i, i < n → byteAt a i = byteAt b i) : a = b := by
  ext i hi
  have := h i hi
  simp [byteAt, hi] at this
  rw [this]

/-- CRC_OK's bits after the check (R105). -/
theorem crcVerdicts_bit (buf : Vector Byte 9) (nrx : Nat) (old : BitVec 3) {i : Nat} (hi : i < 3) :
    (crcVerdicts buf nrx old).getLsbD i = crcOkBit buf nrx old i := by
  have : i = 0 ∨ i = 1 ∨ i = 2 := by omega
  unfold crcVerdicts flagBit
  rcases this with rfl | rfl | rfl <;>
  · generalize crcOkBit buf nrx old 0 = b0
    generalize crcOkBit buf nrx old 1 = b1
    generalize crcOkBit buf nrx old 2 = b2
    cases b0 <;> cases b1 <;> cases b2 <;> rfl

/-- All checked bits are 1 exactly when every group passes (R106). -/
theorem allPass_iff (buf : Vector Byte 9) {nrx : Nat} (h : nrx ≤ 3) (old : BitVec 3) :
    allPass nrx (crcVerdicts buf nrx old) = true ↔ ∀ i, i < nrx → groupPasses buf i = true := by
  simp only [allPass, List.all_eq_true, List.mem_range]
  constructor
  · intro hb i hi
    have := hb i hi
    rwa [crcVerdicts_bit buf nrx old (by omega), crcOkBit, if_pos hi] at this
  · intro hb i hi
    rw [crcVerdicts_bit buf nrx old (by omega), crcOkBit, if_pos hi]
    exact hb i hi

end Sys2Proof.Machine
end

