-- ==== Sys2Proof/Laws/Decode.lean ====
section
/-!
SUPPORT. The fields of an encoded word, and the lookup of an opcode in CMDTAB.
-/
namespace Sys2Proof

/-! ## CMDTAB -/

theorem Command.ofOpcode_descriptor (c : Command) : Command.ofOpcode c.descriptor.opcode = some c := by
  cases c <;> rfl

theorem Command.ofOpcode_some {op : Word} {c : Command} (h : Command.ofOpcode op = some c) :
    c.descriptor.opcode = op := by
  have := List.find?_some h
  simpa using this

theorem Command.ofOpcode_eq_some_iff (op : Word) (c : Command) :
    Command.ofOpcode op = some c ↔ op = c.descriptor.opcode :=
  ⟨fun h => (Command.ofOpcode_some h).symm, fun h => h ▸ Command.ofOpcode_descriptor c⟩

theorem Command.opcode_injective {c d : Command} (h : c.descriptor.opcode = d.descriptor.opcode) : c = d := by
  have := Command.ofOpcode_descriptor c
  rw [h, Command.ofOpcode_descriptor] at this
  simpa using this.symm

theorem Command.ntx_le (c : Command) : c.descriptor.ntx ≤ 2 := by cases c <;> decide

theorem Command.nrx_le (c : Command) : c.descriptor.nrx ≤ 3 := by cases c <;> decide

/-! ## Fields of appended words -/

/-- A field that lies in the high part of a word. -/
theorem extract_append_high {n m : Nat} (x : BitVec n) (y : BitVec m) (start len : Nat) (h : m ≤ start) :
    (x ++ y).extractLsb' start len = x.extractLsb' (start - m) len := by
  ext i hi
  simp [BitVec.getElem_extractLsb', BitVec.getLsbD_append]
  rw [if_neg (by omega)]
  congr 1
  omega

/-- A field that lies in the low part of a word. -/
theorem extract_append_low {n m : Nat} (x : BitVec n) (y : BitVec m) (start len : Nat) (h : start + len ≤ m) :
    (x ++ y).extractLsb' start len = y.extractLsb' start len := by
  ext i hi
  simp [BitVec.getElem_extractLsb', BitVec.getLsbD_append]
  intro hge
  omega

/-- A field that is a whole word. -/
theorem extract_whole {n : Nat} (x : BitVec n) : x.extractLsb' 0 n = x := by
  ext i hi
  simp

/-- A word is its high part and its low part. -/
theorem append_extract {n m : Nat} (x : BitVec (n + m)) : x.extractLsb' m n ++ x.extractLsb' 0 m = x := by
  ext i hi
  simp only [BitVec.getElem_append, BitVec.getElem_extractLsb', Nat.zero_add]
  by_cases h : i < m
  · simp [h, BitVec.getLsbD_eq_getElem hi]
  · simp only [h, dite_false]
    rw [show m + (i - m) = i by omega, BitVec.getLsbD_eq_getElem hi]

/-! ## Fields of encoded words -/

/-- The fields of a word of format H1. -/
theorem h1_fields (op a b c : Byte) :
    fieldOp (encodeH1 op a b c) = op ∧ (encodeH1 op a b c).extractLsb' 32 24 = 0#24 ∧
    fieldA (encodeH1 op a b c) = a ∧ fieldB (encodeH1 op a b c) = b ∧ fieldC (encodeH1 op a b c) = c ∧
    (encodeH1 op a b c).extractLsb' 0 8 = 0#8 := by
  have high := @extract_append_high
  have low := @extract_append_low
  refine ⟨?_, ?_, ?_, ?_, ?_, ?_⟩
  · exact (high (op ++ 0#24 ++ a ++ b ++ c) 0#8 56 8 (by decide)).trans <|
      (high (op ++ 0#24 ++ a ++ b) c 48 8 (by decide)).trans <| (high (op ++ 0#24 ++ a) b 40 8 (by decide)).trans <|
      (high (op ++ 0#24) a 32 8 (by decide)).trans <| (high op 0#24 24 8 (by decide)).trans (extract_whole op)
  · exact (high (op ++ 0#24 ++ a ++ b ++ c) 0#8 32 24 (by decide)).trans <|
      (high (op ++ 0#24 ++ a ++ b) c 24 24 (by decide)).trans <| (high (op ++ 0#24 ++ a) b 16 24 (by decide)).trans <|
      (high (op ++ 0#24) a 8 24 (by decide)).trans <| (low op 0#24 0 24 (by decide)).trans (extract_whole 0#24)
  · exact (high (op ++ 0#24 ++ a ++ b ++ c) 0#8 24 8 (by decide)).trans <|
      (high (op ++ 0#24 ++ a ++ b) c 16 8 (by decide)).trans <| (high (op ++ 0#24 ++ a) b 8 8 (by decide)).trans <|
      (low (op ++ 0#24) a 0 8 (by decide)).trans (extract_whole a)
  · exact (high (op ++ 0#24 ++ a ++ b ++ c) 0#8 16 8 (by decide)).trans <|
      (high (op ++ 0#24 ++ a ++ b) c 8 8 (by decide)).trans <| (low (op ++ 0#24 ++ a) b 0 8 (by decide)).trans (extract_whole b)
  · exact (high (op ++ 0#24 ++ a ++ b ++ c) 0#8 8 8 (by decide)).trans <|
      (low (op ++ 0#24 ++ a ++ b) c 0 8 (by decide)).trans (extract_whole c)
  · exact (low (op ++ 0#24 ++ a ++ b ++ c) 0#8 0 8 (by decide)).trans (extract_whole 0#8)

/-- The fields of a word of format HX. -/
theorem hx_fields (cmd : Command) (np : BitVec 2) (p0 p1 : Word) :
    fieldOp (encodeHX cmd np p0 p1) = 0x20#8 ∧ fieldNp (encodeHX cmd np p0 p1) = np ∧
    (encodeHX cmd np p0 p1).extractLsb' 32 6 = 0#6 ∧ fieldP0 (encodeHX cmd np p0 p1) = p0 ∧
    fieldP1 (encodeHX cmd np p0 p1) = p1 ∧ fieldCmd (encodeHX cmd np p0 p1) = cmd.descriptor.opcode := by
  have high := @extract_append_high
  have low := @extract_append_low
  let o := cmd.descriptor.opcode
  refine ⟨?_, ?_, ?_, ?_, ?_, ?_⟩
  · exact (high (0x20#8 ++ o ++ np ++ 0#6 ++ p0) p1 56 8 (by decide)).trans <|
      (high (0x20#8 ++ o ++ np ++ 0#6) p0 40 8 (by decide)).trans <| (high (0x20#8 ++ o ++ np) 0#6 24 8 (by decide)).trans <|
      (high (0x20#8 ++ o) np 18 8 (by decide)).trans <| (high 0x20#8 o 16 8 (by decide)).trans (extract_whole 0x20#8)
  · exact (high (0x20#8 ++ o ++ np ++ 0#6 ++ p0) p1 38 2 (by decide)).trans <|
      (high (0x20#8 ++ o ++ np ++ 0#6) p0 22 2 (by decide)).trans <| (high (0x20#8 ++ o ++ np) 0#6 6 2 (by decide)).trans <|
      (low (0x20#8 ++ o) np 0 2 (by decide)).trans (extract_whole np)
  · exact (high (0x20#8 ++ o ++ np ++ 0#6 ++ p0) p1 32 6 (by decide)).trans <|
      (high (0x20#8 ++ o ++ np ++ 0#6) p0 16 6 (by decide)).trans <|
      (low (0x20#8 ++ o ++ np) 0#6 0 6 (by decide)).trans (extract_whole 0#6)
  · exact (high (0x20#8 ++ o ++ np ++ 0#6 ++ p0) p1 16 16 (by decide)).trans <|
      (low (0x20#8 ++ o ++ np ++ 0#6) p0 0 16 (by decide)).trans (extract_whole p0)
  · exact (low (0x20#8 ++ o ++ np ++ 0#6 ++ p0) p1 0 16 (by decide)).trans (extract_whole p1)
  · exact (high (0x20#8 ++ o ++ np ++ 0#6 ++ p0) p1 40 16 (by decide)).trans <|
      (high (0x20#8 ++ o ++ np ++ 0#6) p0 24 16 (by decide)).trans <| (high (0x20#8 ++ o ++ np) 0#6 8 16 (by decide)).trans <|
      (high (0x20#8 ++ o) np 2 16 (by decide)).trans <| (low 0x20#8 o 0 16 (by decide)).trans (extract_whole o)

end Sys2Proof
end

