-- ==== Sys2Proof/Laws/WellFormed.lean ====
section
/-!
SUPPORT. The masks of the format check as fields of the word.
-/
namespace Sys2Proof

/-- The mask of the `len` bits from `start` on. -/
def fieldMask (start len : Nat) : BitVec 64 := (BitVec.allOnes len).zeroExtend 64 <<< start

theorem fieldMask_bit {start len i : Nat} (hi : i < 64) :
    (fieldMask start len).getLsbD i = decide (start ≤ i ∧ i < start + len) := by
  simp only [fieldMask, BitVec.getLsbD_shiftLeft, BitVec.truncate_eq_setWidth, BitVec.getLsbD_setWidth,
    BitVec.getLsbD_allOnes]
  by_cases h1 : start ≤ i <;> by_cases h2 : i < start + len <;> simp [h1, h2, hi] <;> omega

/-- A masked word is 0 exactly when the field under the mask is 0. -/
theorem and_fieldMask_eq_zero_iff (w : BitVec 64) {start len : Nat} (hl : start + len ≤ 64) :
    w &&& fieldMask start len = 0#64 ↔ w.extractLsb' start len = 0#len := by
  constructor
  · intro h
    ext i hi
    have := congrArg (fun v => v.getLsbD (start + i)) h
    simp only [BitVec.getLsbD_and, fieldMask_bit (show start + i < 64 by omega)] at this
    simpa [BitVec.getElem_extractLsb', hi] using this
  · intro h
    ext i hi
    rw [← BitVec.getLsbD_eq_getElem hi, BitVec.getLsbD_and, fieldMask_bit hi]
    by_cases hin : start ≤ i ∧ i < start + len
    · have := congrArg (fun v => v.getLsbD (i - start)) h
      simp only [BitVec.getLsbD_extractLsb'] at this
      rw [show start + (i - start) = i by omega] at this
      simp only [show i - start < len by omega, decide_true, Bool.true_and] at this
      simp [this]
    · simp [hin]

/-- Two masks together. -/
theorem and_or_eq_zero_iff (w m k : BitVec 64) : w &&& (m ||| k) = 0#64 ↔ w &&& m = 0#64 ∧ w &&& k = 0#64 := by
  rw [BitVec.and_or_distrib_left, BitVec.or_eq_zero_iff]

/-- The selector of R57 is the decoder's OP. -/
theorem shift_op (w : ReqWord) : (w >>> 56).toNat = (fieldOp w).toNat := by
  have := w.isLt
  simp [fieldOp, BitVec.extractLsb'_toNat, Nat.shiftRight_eq_div_pow]
  omega

/-- NP of R56 is the decoder's NP. -/
theorem payloadCount_eq (w : ReqWord) : w.payloadCount = (fieldNp w).toNat := by
  simp only [ReqWord.payloadCount, fieldNp, BitVec.toNat_and, BitVec.toNat_ushiftRight, BitVec.extractLsb'_toNat]
  exact Nat.and_two_pow_sub_one_eq_mod _ 2

end Sys2Proof
end

