-- ==== Sys2Proof/Laws/PerInstr.lean ====
section
/-!
SUPPORT. A statement about every instruction, with one lemma per constructor: its encoded word passes the format check of
42_sequencer.md R96.
-/
namespace Sys2Proof.Laws.EncodeWellFormed

/-- The encoded word of the instruction is well formed (R96). -/
def Statement (i : Instr) : Prop := (encode i).wellFormed = true

theorem h0_wellFormed {op : Byte} (h : op = 0x01#8 ∨ op = 0x10#8 ∨ op = 0x11#8) : (encodeH0 op).wellFormed = true := by
  rcases h with rfl | rfl | rfl <;> decide

theorem h1_wellFormed {op a b c : Byte} (hop : op = 0x02#8 ∨ op = 0x03#8 ∨ op = 0x04#8 ∨ op = 0x30#8)
    (hb : op = 0x02#8 ∨ op = 0x30#8 → b = 0#8 ∧ c = 0#8) (hc : op = 0x03#8 → c = 0#8) :
    (encodeH1 op a b c).wellFormed = true := by
  obtain ⟨fop, fr, -, fb, fc, f0⟩ := h1_fields op a b c
  generalize encodeH1 op a b c = w at *
  have hres : w &&& 0x00FFFFFF000000FF#64 = 0#64 := by
    rw [show (0x00FFFFFF000000FF#64) = fieldMask 32 24 ||| fieldMask 0 8 by decide, and_or_eq_zero_iff]
    exact ⟨(and_fieldMask_eq_zero_iff w (by decide)).2 fr, (and_fieldMask_eq_zero_iff w (by decide)).2 f0⟩
  have hC : c = 0#8 → w &&& 0x000000000000FF00#64 = 0#64 := fun h =>
    (show (0x000000000000FF00#64) = fieldMask 8 8 by decide) ▸ (and_fieldMask_eq_zero_iff w (by decide)).2 (fc.trans h)
  have hBC : b = 0#8 ∧ c = 0#8 → w &&& 0x0000000000FFFF00#64 = 0#64 := fun h => by
    rw [show (0x0000000000FFFF00#64) = fieldMask 16 8 ||| fieldMask 8 8 by decide, and_or_eq_zero_iff]
    exact ⟨(and_fieldMask_eq_zero_iff w (by decide)).2 (fb.trans h.1),
      (and_fieldMask_eq_zero_iff w (by decide)).2 (fc.trans h.2)⟩
  simp only [ReqWord.wellFormed, ReqWord.selectorListed, ReqWord.reservedZero, ReqWord.unusedZero,
    ReqWord.payloadCountLegal, ReqWord.payloadUnusedZero, shift_op, fop]
  rcases hop with rfl | rfl | rfl | rfl <;> simp_all

theorem hx_wellFormed (c : Command) {np : BitVec 2} {p0 p1 : Word} (hn : np.toNat ≤ 2) (h0 : np.toNat < 1 → p0 = 0#16)
    (h1 : np.toNat < 2 → p1 = 0#16) : (encodeHX c np p0 p1).wellFormed = true := by
  obtain ⟨fop, fnp, fr, f0, f1, -⟩ := hx_fields c np p0 p1
  generalize encodeHX c np p0 p1 = w at *
  have hres : w &&& 0x0000003F00000000#64 = 0#64 :=
    (show (0x0000003F00000000#64) = fieldMask 32 6 by decide) ▸ (and_fieldMask_eq_zero_iff w (by decide)).2 fr
  have hP0 : np.toNat < 1 → w &&& 0x00000000FFFF0000#64 = 0#64 := fun h =>
    (show (0x00000000FFFF0000#64) = fieldMask 16 16 by decide) ▸ (and_fieldMask_eq_zero_iff w (by decide)).2 (f0.trans (h0 h))
  have hP1 : np.toNat < 2 → w &&& 0x000000000000FFFF#64 = 0#64 := fun h =>
    (show (0x000000000000FFFF#64) = fieldMask 0 16 by decide) ▸ (and_fieldMask_eq_zero_iff w (by decide)).2 (f1.trans (h1 h))
  simp only [ReqWord.wellFormed, ReqWord.selectorListed, ReqWord.reservedZero, ReqWord.unusedZero,
    ReqWord.payloadCountLegal, ReqWord.payloadUnusedZero, shift_op, payloadCount_eq, fop, fnp, hres]
  by_cases a : np.toNat < 1 <;> by_cases b : np.toNat < 2 <;> simp_all <;> omega

theorem crcInit : Statement .crcInit := h0_wellFormed (.inl rfl)
theorem crcUpdate (a : Byte) : Statement (.crcUpdate a) := h1_wellFormed (by decide) (by decide) (by decide)
theorem crcGen (hi lo : Byte) : Statement (.crcGen hi lo) := h1_wellFormed (by decide) (by simp) (by simp)
theorem crcVerify (hi lo e : Byte) : Statement (.crcVerify hi lo e) := h1_wellFormed (by decide) (by simp) (by simp)
theorem linkOpen : Statement .linkOpen := h0_wellFormed (.inr (.inl rfl))
theorem linkClose : Statement .linkClose := h0_wellFormed (.inr (.inr rfl))
theorem cmdInit : Statement .cmdInit := hx_wellFormed .init (by decide) (by decide) (by decide)
theorem cmdMeasureAirQuality : Statement .cmdMeasureAirQuality :=
  hx_wellFormed .measureAirQuality (by decide) (by decide) (by decide)
theorem cmdMeasureRawSignals : Statement .cmdMeasureRawSignals :=
  hx_wellFormed .measureRawSignals (by decide) (by decide) (by decide)
theorem cmdGetBaseline : Statement .cmdGetBaseline := hx_wellFormed .getBaseline (by decide) (by decide) (by decide)
theorem cmdSetBaseline (p0 p1 : Word) : Statement (.cmdSetBaseline p0 p1) :=
  hx_wellFormed .setBaseline (by decide) (by simp) (by simp)
theorem cmdSetHumidity (p0 : Word) : Statement (.cmdSetHumidity p0) :=
  hx_wellFormed .setHumidity (by decide) (by simp) (by simp)
theorem cmdSelfTest : Statement .cmdSelfTest := hx_wellFormed .selfTest (by decide) (by decide) (by decide)
theorem cmdGetFeatureSetVersion : Statement .cmdGetFeatureSetVersion :=
  hx_wellFormed .getFeatureSetVersion (by decide) (by decide) (by decide)
theorem cmdGetSerialId : Statement .cmdGetSerialId := hx_wellFormed .getSerialId (by decide) (by decide) (by decide)
theorem regRead (n : Byte) : Statement (.regRead n) := h1_wellFormed (by decide) (by decide) (by decide)

end Sys2Proof.Laws.EncodeWellFormed
end

