-- ==== Sys2Proof/Laws/State.lean ====
section
/-!
SUPPORT. One lemma per field of the state and named update: what each shared operation leaves in each field.
-/
namespace Sys2Proof.Machine

/-! ## Completion -/

@[simp] theorem complete_link (e : ErrCode) (d : BitVec 64) (s : State) : (complete e d s).link = s.link := rfl
@[simp] theorem complete_phase (e : ErrCode) (d : BitVec 64) (s : State) : (complete e d s).phase = .idle := rfl
@[simp] theorem complete_lastCmd (e : ErrCode) (d : BitVec 64) (s : State) : (complete e d s).lastCmd = s.lastCmd := rfl
@[simp] theorem complete_crc (e : ErrCode) (d : BitVec 64) (s : State) : (complete e d s).crc = s.crc := rfl
@[simp] theorem complete_txBuf (e : ErrCode) (d : BitVec 64) (s : State) : (complete e d s).txBuf = s.txBuf := rfl
@[simp] theorem complete_txLen (e : ErrCode) (d : BitVec 64) (s : State) : (complete e d s).txLen = s.txLen := rfl
@[simp] theorem complete_txCount (e : ErrCode) (d : BitVec 64) (s : State) : (complete e d s).txCount = s.txCount := rfl
@[simp] theorem complete_rxBuf (e : ErrCode) (d : BitVec 64) (s : State) : (complete e d s).rxBuf = s.rxBuf := rfl
@[simp] theorem complete_rxLen (e : ErrCode) (d : BitVec 64) (s : State) : (complete e d s).rxLen = s.rxLen := rfl
@[simp] theorem complete_rxCount (e : ErrCode) (d : BitVec 64) (s : State) : (complete e d s).rxCount = s.rxCount := rfl
@[simp] theorem complete_crcOk (e : ErrCode) (d : BitVec 64) (s : State) : (complete e d s).crcOk = s.crcOk := rfl
@[simp] theorem complete_err (e : ErrCode) (d : BitVec 64) (s : State) : (complete e d s).err = s.err := rfl
@[simp] theorem complete_resultValid (e : ErrCode) (d : BitVec 64) (s : State) : (complete e d s).resultValid = s.resultValid := rfl
@[simp] theorem complete_stPass (e : ErrCode) (d : BitVec 64) (s : State) : (complete e d s).stPass = s.stPass := rfl
@[simp] theorem complete_res0 (e : ErrCode) (d : BitVec 64) (s : State) : (complete e d s).res0 = s.res0 := rfl
@[simp] theorem complete_res1 (e : ErrCode) (d : BitVec 64) (s : State) : (complete e d s).res1 = s.res1 := rfl
@[simp] theorem complete_res2 (e : ErrCode) (d : BitVec 64) (s : State) : (complete e d s).res2 = s.res2 := rfl
@[simp] theorem complete_waitMin (e : ErrCode) (d : BitVec 64) (s : State) : (complete e d s).waitMin = s.waitMin := rfl
@[simp] theorem complete_port (e : ErrCode) (d : BitVec 64) (s : State) : (complete e d s).port = s.port := rfl
@[simp] theorem complete_env (e : ErrCode) (d : BitVec 64) (s : State) : (complete e d s).env = s.env := rfl
@[simp] theorem complete_draws (e : ErrCode) (d : BitVec 64) (s : State) : (complete e d s).draws = s.draws := rfl
@[simp] theorem complete_trace (e : ErrCode) (d : BitVec 64) (s : State) : (complete e d s).trace = .responded ⟨e, d⟩ :: s.trace := rfl

/-! ## Acceptance -/

@[simp] theorem takeRequest_link (w : ReqWord) (s : State) : (takeRequest w s).link = s.link := rfl
@[simp] theorem takeRequest_phase (w : ReqWord) (s : State) : (takeRequest w s).phase = s.phase := rfl
@[simp] theorem takeRequest_lastCmd (w : ReqWord) (s : State) : (takeRequest w s).lastCmd = s.lastCmd := rfl
@[simp] theorem takeRequest_crc (w : ReqWord) (s : State) : (takeRequest w s).crc = s.crc := rfl
@[simp] theorem takeRequest_txBuf (w : ReqWord) (s : State) : (takeRequest w s).txBuf = s.txBuf := rfl
@[simp] theorem takeRequest_txLen (w : ReqWord) (s : State) : (takeRequest w s).txLen = s.txLen := rfl
@[simp] theorem takeRequest_txCount (w : ReqWord) (s : State) : (takeRequest w s).txCount = s.txCount := rfl
@[simp] theorem takeRequest_rxBuf (w : ReqWord) (s : State) : (takeRequest w s).rxBuf = s.rxBuf := rfl
@[simp] theorem takeRequest_rxLen (w : ReqWord) (s : State) : (takeRequest w s).rxLen = s.rxLen := rfl
@[simp] theorem takeRequest_rxCount (w : ReqWord) (s : State) : (takeRequest w s).rxCount = s.rxCount := rfl
@[simp] theorem takeRequest_crcOk (w : ReqWord) (s : State) : (takeRequest w s).crcOk = s.crcOk := rfl
@[simp] theorem takeRequest_err (w : ReqWord) (s : State) : (takeRequest w s).err = s.err := rfl
@[simp] theorem takeRequest_resultValid (w : ReqWord) (s : State) : (takeRequest w s).resultValid = s.resultValid := rfl
@[simp] theorem takeRequest_stPass (w : ReqWord) (s : State) : (takeRequest w s).stPass = s.stPass := rfl
@[simp] theorem takeRequest_res0 (w : ReqWord) (s : State) : (takeRequest w s).res0 = s.res0 := rfl
@[simp] theorem takeRequest_res1 (w : ReqWord) (s : State) : (takeRequest w s).res1 = s.res1 := rfl
@[simp] theorem takeRequest_res2 (w : ReqWord) (s : State) : (takeRequest w s).res2 = s.res2 := rfl
@[simp] theorem takeRequest_waitMin (w : ReqWord) (s : State) : (takeRequest w s).waitMin = s.waitMin := rfl
@[simp] theorem takeRequest_port (w : ReqWord) (s : State) : (takeRequest w s).port = none := rfl
@[simp] theorem takeRequest_env (w : ReqWord) (s : State) : (takeRequest w s).env = s.env := rfl
@[simp] theorem takeRequest_draws (w : ReqWord) (s : State) : (takeRequest w s).draws = s.draws := rfl
@[simp] theorem takeRequest_trace (w : ReqWord) (s : State) : (takeRequest w s).trace = .accepted w :: s.trace := rfl

/-! ## The start of an EXEC -/

@[simp] theorem beginExec_link (c : Command) (ps : List Word) (s : State) : (beginExec c ps s).link = s.link := rfl
@[simp] theorem beginExec_phase (c : Command) (ps : List Word) (s : State) : (beginExec c ps s).phase = .tx := rfl
@[simp] theorem beginExec_lastCmd (c : Command) (ps : List Word) (s : State) : (beginExec c ps s).lastCmd = c.descriptor.opcode := rfl
@[simp] theorem beginExec_crc (c : Command) (ps : List Word) (s : State) : (beginExec c ps s).crc = s.crc := rfl
@[simp] theorem beginExec_txBuf (c : Command) (ps : List Word) (s : State) : (beginExec c ps s).txBuf = frameOf c ps := rfl
@[simp] theorem beginExec_txLen (c : Command) (ps : List Word) (s : State) : (beginExec c ps s).txLen = txLenOf c := rfl
@[simp] theorem beginExec_txCount (c : Command) (ps : List Word) (s : State) : (beginExec c ps s).txCount = 0#4 := rfl
@[simp] theorem beginExec_rxBuf (c : Command) (ps : List Word) (s : State) : (beginExec c ps s).rxBuf = Vector.replicate 9 0#8 := rfl
@[simp] theorem beginExec_rxLen (c : Command) (ps : List Word) (s : State) : (beginExec c ps s).rxLen = rxLenOf c := rfl
@[simp] theorem beginExec_rxCount (c : Command) (ps : List Word) (s : State) : (beginExec c ps s).rxCount = 0#4 := rfl
@[simp] theorem beginExec_crcOk (c : Command) (ps : List Word) (s : State) : (beginExec c ps s).crcOk = 0#3 := rfl
@[simp] theorem beginExec_err (c : Command) (ps : List Word) (s : State) : (beginExec c ps s).err = .ok := rfl
@[simp] theorem beginExec_resultValid (c : Command) (ps : List Word) (s : State) : (beginExec c ps s).resultValid = false := rfl
@[simp] theorem beginExec_stPass (c : Command) (ps : List Word) (s : State) : (beginExec c ps s).stPass = false := rfl
@[simp] theorem beginExec_res0 (c : Command) (ps : List Word) (s : State) : (beginExec c ps s).res0 = 0#16 := rfl
@[simp] theorem beginExec_res1 (c : Command) (ps : List Word) (s : State) : (beginExec c ps s).res1 = 0#16 := rfl
@[simp] theorem beginExec_res2 (c : Command) (ps : List Word) (s : State) : (beginExec c ps s).res2 = 0#16 := rfl
@[simp] theorem beginExec_waitMin (c : Command) (ps : List Word) (s : State) : (beginExec c ps s).waitMin = s.waitMin := rfl
@[simp] theorem beginExec_port (c : Command) (ps : List Word) (s : State) : (beginExec c ps s).port = s.port := rfl
@[simp] theorem beginExec_env (c : Command) (ps : List Word) (s : State) : (beginExec c ps s).env = s.env := rfl
@[simp] theorem beginExec_draws (c : Command) (ps : List Word) (s : State) : (beginExec c ps s).draws = s.draws := rfl
@[simp] theorem beginExec_trace (c : Command) (ps : List Word) (s : State) : (beginExec c ps s).trace = .writeIssued Config.busAddress (txBytes (frameOf c ps) (txLenOf c)) :: s.trace := rfl

/-! ## Inputs and reset -/

@[simp] theorem dropInput_link (s : State) : (dropInput s).link = s.link := by unfold dropInput; split <;> simp_all
@[simp] theorem dropInput_phase (s : State) : (dropInput s).phase = s.phase := by unfold dropInput; split <;> simp_all
@[simp] theorem dropInput_lastCmd (s : State) : (dropInput s).lastCmd = s.lastCmd := by unfold dropInput; split <;> simp_all
@[simp] theorem dropInput_crc (s : State) : (dropInput s).crc = s.crc := by unfold dropInput; split <;> simp_all
@[simp] theorem dropInput_txBuf (s : State) : (dropInput s).txBuf = s.txBuf := by unfold dropInput; split <;> simp_all
@[simp] theorem dropInput_txLen (s : State) : (dropInput s).txLen = s.txLen := by unfold dropInput; split <;> simp_all
@[simp] theorem dropInput_txCount (s : State) : (dropInput s).txCount = s.txCount := by unfold dropInput; split <;> simp_all
@[simp] theorem dropInput_rxBuf (s : State) : (dropInput s).rxBuf = s.rxBuf := by unfold dropInput; split <;> simp_all
@[simp] theorem dropInput_rxLen (s : State) : (dropInput s).rxLen = s.rxLen := by unfold dropInput; split <;> simp_all
@[simp] theorem dropInput_rxCount (s : State) : (dropInput s).rxCount = s.rxCount := by unfold dropInput; split <;> simp_all
@[simp] theorem dropInput_crcOk (s : State) : (dropInput s).crcOk = s.crcOk := by unfold dropInput; split <;> simp_all
@[simp] theorem dropInput_err (s : State) : (dropInput s).err = s.err := by unfold dropInput; split <;> simp_all
@[simp] theorem dropInput_resultValid (s : State) : (dropInput s).resultValid = s.resultValid := by unfold dropInput; split <;> simp_all
@[simp] theorem dropInput_stPass (s : State) : (dropInput s).stPass = s.stPass := by unfold dropInput; split <;> simp_all
@[simp] theorem dropInput_res0 (s : State) : (dropInput s).res0 = s.res0 := by unfold dropInput; split <;> simp_all
@[simp] theorem dropInput_res1 (s : State) : (dropInput s).res1 = s.res1 := by unfold dropInput; split <;> simp_all
@[simp] theorem dropInput_res2 (s : State) : (dropInput s).res2 = s.res2 := by unfold dropInput; split <;> simp_all
@[simp] theorem dropInput_waitMin (s : State) : (dropInput s).waitMin = s.waitMin := by unfold dropInput; split <;> simp_all
@[simp] theorem dropInput_port (s : State) : (dropInput s).port = s.port := by unfold dropInput; split <;> simp_all
@[simp] theorem dropInput_env (s : State) : (dropInput s).env = s.env.tail := by unfold dropInput; split <;> simp_all
@[simp] theorem dropInput_trace (s : State) : (dropInput s).trace = s.trace := by unfold dropInput; split <;> simp_all

@[simp] theorem takeReset_link (s : State) : (takeReset s).link = State.reset.link := rfl
@[simp] theorem takeReset_phase (s : State) : (takeReset s).phase = State.reset.phase := rfl
@[simp] theorem takeReset_lastCmd (s : State) : (takeReset s).lastCmd = State.reset.lastCmd := rfl
@[simp] theorem takeReset_crc (s : State) : (takeReset s).crc = State.reset.crc := rfl
@[simp] theorem takeReset_txBuf (s : State) : (takeReset s).txBuf = State.reset.txBuf := rfl
@[simp] theorem takeReset_txLen (s : State) : (takeReset s).txLen = State.reset.txLen := rfl
@[simp] theorem takeReset_txCount (s : State) : (takeReset s).txCount = State.reset.txCount := rfl
@[simp] theorem takeReset_rxBuf (s : State) : (takeReset s).rxBuf = State.reset.rxBuf := rfl
@[simp] theorem takeReset_rxLen (s : State) : (takeReset s).rxLen = State.reset.rxLen := rfl
@[simp] theorem takeReset_rxCount (s : State) : (takeReset s).rxCount = State.reset.rxCount := rfl
@[simp] theorem takeReset_crcOk (s : State) : (takeReset s).crcOk = State.reset.crcOk := rfl
@[simp] theorem takeReset_err (s : State) : (takeReset s).err = State.reset.err := rfl
@[simp] theorem takeReset_resultValid (s : State) : (takeReset s).resultValid = State.reset.resultValid := rfl
@[simp] theorem takeReset_stPass (s : State) : (takeReset s).stPass = State.reset.stPass := rfl
@[simp] theorem takeReset_res0 (s : State) : (takeReset s).res0 = State.reset.res0 := rfl
@[simp] theorem takeReset_res1 (s : State) : (takeReset s).res1 = State.reset.res1 := rfl
@[simp] theorem takeReset_res2 (s : State) : (takeReset s).res2 = State.reset.res2 := rfl
@[simp] theorem takeReset_waitMin (s : State) : (takeReset s).waitMin = State.reset.waitMin := rfl
@[simp] theorem takeReset_port (s : State) : (takeReset s).port = State.reset.port := rfl
@[simp] theorem takeReset_env (s : State) : (takeReset s).env = s.env := rfl
@[simp] theorem takeReset_draws (s : State) : (takeReset s).draws = s.draws := rfl
@[simp] theorem takeReset_trace (s : State) : (takeReset s).trace = .resetTaken :: s.trace := rfl

end Sys2Proof.Machine
end

