-- ==== Sys2Proof/Laws/Step.lean ====
section
/-!
SUPPORT. What each shared operation, each meaning and one step can do, said once.
-/
namespace Sys2Proof.Machine

/-! ## Completions as record updates -/

theorem completeError_eq (e : ErrCode) (s : State) : completeError e s = complete e 0#64 { s with err := e } := rfl

theorem completeExec_eq (d : BitVec 64) (s : State) :
    completeExec d s = complete s.err d { s with resultValid := true } := rfl

theorem refuseMalformed_eq (s : State) : refuseMalformed s = complete .invalid 0#64 s := rfl

theorem refuseExec_eq (s : State) :
    refuseExec s = complete .invalid 0#64 { s with resultValid := false, stPass := false, err := .invalid } := rfl

/-- On an idle engine a completion only adds the response to the trace. -/
theorem complete_idle {s : State} (h : s.phase = .idle) (e : ErrCode) (d : BitVec 64) :
    complete e d s = { s with trace := .responded ⟨e, d⟩ :: s.trace } := by
  cases s; simp_all [complete]

/-! ## The start of an EXEC -/

theorem startExec_open {s : State} (h : s.link = true) (c : Command) (ps : List Word) :
    startExec c ps s = .next (beginExec c ps s) := by simp [startExec, h]

theorem startExec_closed {s : State} (h : s.link = false) (c : Command) (ps : List Word) :
    startExec c ps s = .next (refuseExec s) := by simp [startExec, h]

theorem startExec_cases {c : Command} {ps : List Word} {s t : State} (h : startExec c ps s = .next t) :
    (s.link = true ∧ t = beginExec c ps s) ∨ (s.link = false ∧ t = refuseExec s) := by
  unfold startExec at h
  split at h <;> simp_all

/-! ## The meanings -/

/-- The payload words of an EXEC request and its command; none for the other requests. -/
def execParts : Instr → Option (Command × List Word)
  | .cmdInit => some (.init, [])
  | .cmdMeasureAirQuality => some (.measureAirQuality, [])
  | .cmdMeasureRawSignals => some (.measureRawSignals, [])
  | .cmdGetBaseline => some (.getBaseline, [])
  | .cmdSetBaseline p0 p1 => some (.setBaseline, [p0, p1])
  | .cmdSetHumidity p0 => some (.setHumidity, [p0])
  | .cmdSelfTest => some (.selfTest, [])
  | .cmdGetFeatureSetVersion => some (.getFeatureSetVersion, [])
  | .cmdGetSerialId => some (.getSerialId, [])
  | .crcInit | .crcUpdate _ | .crcGen _ _ | .crcVerify _ _ _ | .linkOpen | .linkClose | .regRead _ => none

theorem exec_execParts {i : Instr} {c : Command} {ps : List Word} (h : execParts i = some (c, ps)) (s : State) :
    exec i s = startExec c ps s := by
  cases i <;> simp [execParts] at h <;> obtain ⟨rfl, rfl⟩ := h <;> rfl

theorem execParts_length {i : Instr} {c : Command} {ps : List Word} (h : execParts i = some (c, ps)) :
    ps.length = c.descriptor.ntx := by
  cases i <;> simp [execParts] at h <;> obtain ⟨rfl, rfl⟩ := h <;> rfl

/-- Everything a request can do at its acceptance. -/
theorem exec_cases {i : Instr} {s t : State} (h : exec i s = .next t) :
    (∃ c d, t = complete .ok d { s with crc := c }) ∨
    (i = .linkOpen ∧ s.link = true ∧ t = completeError .invalid s) ∨
    (i = .linkOpen ∧ s.link = false ∧
      t = { s with phase := .bind, trace := .bindIssued Config.busId Config.busAddress :: s.trace }) ∨
    (i = .linkClose ∧ t = complete .ok 0#64 { releaseLink s with err := .ok }) ∨
    (∃ c ps, execParts i = some (c, ps) ∧ s.link = true ∧ t = beginExec c ps s) ∨
    (∃ c ps, execParts i = some (c, ps) ∧ s.link = false ∧ t = refuseExec s) ∨
    (∃ n, i = .regRead n ∧ t = complete .invalid 0#64 s) := by
  cases hp : execParts i with
  | some p =>
    obtain ⟨c, ps⟩ := p
    rw [exec_execParts hp] at h
    obtain ⟨hl, rfl⟩ | ⟨hl, rfl⟩ := startExec_cases h
    · exact .inr (.inr (.inr (.inr (.inl ⟨c, ps, rfl, hl, rfl⟩))))
    · exact .inr (.inr (.inr (.inr (.inr (.inl ⟨c, ps, rfl, hl, rfl⟩)))))
  | none =>
    cases i <;> simp [execParts] at hp
    case crcInit => cases h; exact .inl ⟨_, _, rfl⟩
    case crcUpdate => cases h; exact .inl ⟨_, _, rfl⟩
    case crcGen => cases h; exact .inl ⟨_, _, rfl⟩
    case crcVerify => cases h; exact .inl ⟨_, _, rfl⟩
    case linkOpen =>
      simp only [exec, execLinkOpen] at h
      split at h <;> cases h <;> simp_all
    case linkClose => cases h; simp
    case regRead n =>
      simp only [exec, execRegRead] at h
      split at h <;> cases h
      · exact .inl ⟨s.crc, _, rfl⟩
      · simp

/-- No meaning stops. -/
theorem exec_next (i : Instr) (s : State) : ∃ t, exec i s = .next t := by
  cases hp : execParts i with
  | some p =>
    rw [exec_execParts (c := p.1) (ps := p.2) hp]
    cases hl : s.link
    · exact ⟨_, startExec_closed hl ..⟩
    · exact ⟨_, startExec_open hl ..⟩
  | none =>
    cases i <;> simp [execParts] at hp
    case linkOpen => cases hl : s.link <;> simp [exec, execLinkOpen, hl]
    case regRead n => simp only [exec, execRegRead]; split <;> simp
    all_goals exact ⟨_, rfl⟩

/-! ## One step -/

theorem resetPending_iff (s : State) : resetPending s = true ↔ nextInput s = .reset := by
  unfold resetPending
  split <;> simp_all

theorem not_resetPending {s : State} (h : nextInput s ≠ .reset) : resetPending s = false := by
  rwa [Bool.eq_false_iff, Ne, resetPending_iff]

theorem step_reset {s : State} (h : nextInput s = .reset) : step s = .next (takeReset (dropInput s)) := by
  simp [step, (resetPending_iff s).2 h]

theorem step_accept {s : State} {w : ReqWord} (hr : nextInput s ≠ .reset) (hp : s.phase = .idle)
    (hw : s.port = some w) : step s = runDecoded (decode w) (takeRequest w s) := by
  simp [step, not_resetPending hr, hp, hw]

theorem step_environment {s : State} (hr : nextInput s ≠ .reset) (h : s.phase ≠ .idle ∨ s.port = none) :
    step s = environmentStep (nextInput s) (dropInput s) := by
  unfold step
  rw [not_resetPending hr]
  split
  · contradiction
  · split
    · simp_all
    · rfl

/-- Everything a step can be: a reset, an acceptance, or an input of the environment. -/
theorem step_cases (s : State) :
    (nextInput s = .reset ∧ step s = .next (takeReset (dropInput s))) ∨
    (nextInput s ≠ .reset ∧ s.phase = .idle ∧
      ∃ w, s.port = some w ∧ step s = runDecoded (decode w) (takeRequest w s)) ∨
    (nextInput s ≠ .reset ∧ (s.phase ≠ .idle ∨ s.port = none) ∧
      step s = environmentStep (nextInput s) (dropInput s)) := by
  by_cases hr : nextInput s = .reset
  · exact .inl ⟨hr, step_reset hr⟩
  · by_cases hp : s.phase = .idle
    · cases hw : s.port with
      | some w => exact .inr (.inl ⟨hr, hp, w, rfl, step_accept hr hp hw⟩)
      | none => exact .inr (.inr ⟨hr, .inr rfl, step_environment hr (.inr hw)⟩)
    · exact .inr (.inr ⟨hr, .inl hp, step_environment hr (.inl hp)⟩)

theorem withoutReset_head (env : List EnvInput) : ∃ m rest, withoutReset env = m :: rest ∧ m ≠ .reset := by
  induction env with
  | nil => exact ⟨.silent, [], rfl, by decide⟩
  | cons m rest ih =>
    by_cases h : m = .reset
    · subst h; exact ih
    · refine ⟨m, rest, ?_, h⟩
      simp [withoutReset, h]

/-- The step after `withFetchWord` accepts the word, from every state. -/
theorem step_withFetchWord (s : State) (nbits w : Nat) :
    step (s.withFetchWord nbits w) =
      runDecoded (decode (BitVec.ofNat 64 (w % 2 ^ nbits)))
        (takeRequest (BitVec.ofNat 64 (w % 2 ^ nbits)) (s.withFetchWord nbits w)) := by
  obtain ⟨m, rest, he, hm⟩ := withoutReset_head s.env
  refine step_accept ?_ rfl rfl
  simp [nextInput, State.withFetchWord, he, hm]

/-- An accepted word runs an instruction or is refused. -/
theorem runDecoded_cases {d : Decoded} {s t : State} (h : runDecoded d s = .next t) :
    (∃ i, d = .instr i ∧ exec i s = .next t) ∨
    (∃ why, d = .malformed why ∧ t = refuseMalformed s) ∨
    (∃ cmd np, d = .invalidExec cmd np ∧ t = refuseExec s) := by
  cases d with
  | instr i => exact .inl ⟨i, rfl, h⟩
  | malformed why => cases h; exact .inr (.inl ⟨why, rfl, rfl⟩)
  | invalidExec cmd np => cases h; exact .inr (.inr ⟨cmd, np, rfl, rfl⟩)

/-! ## The environment's inputs -/

theorem startWait_cases {s t : State} (h : startWait s = .next t) :
    ∃ c, Command.ofOpcode s.lastCmd = some c ∧
      t = { s with waitMin := c.descriptor.delayMs, phase := .wait, trace := .waitStarted c.descriptor.delayMs :: s.trace } := by
  unfold startWait at h
  split at h
  · rename_i c hc; cases h; exact ⟨c, hc, rfl⟩
  · cases h

/-- Everything an input of the environment can do. -/
theorem environmentStep_cases {m : EnvInput} {s t : State} (h : environmentStep m s = .next t) :
    t = s ∨
    (∃ w, m = .offer w ∧ s.port = none ∧ t = { s with port := some w, trace := .offered w :: s.trace }) ∨
    (m = .reset ∧ t = takeReset s) ∨
    (∃ ok, m = .bindAnswer ok ∧ s.phase = .bind ∧ onBindAnswer ok s = .next t) ∨
    (∃ k, m = .writeCount k ∧ s.phase = .tx ∧ onWriteCount k s = .next t) ∨
    (m = .waitEnd ∧ s.phase = .wait ∧ onWaitEnd s = .next t) ∨
    (∃ bytes, m = .readBytes bytes ∧ s.phase = .rx ∧ onReadBytes bytes s = .next t) := by
  cases m <;> simp only [environmentStep] at h
  case offer w =>
    cases hp : s.port <;> simp [offerRequest, hp] at h
    · exact .inr (.inl ⟨w, rfl, rfl, h.symm⟩)
    · exact .inl h.symm
  case reset => cases h; exact .inr (.inr (.inl ⟨rfl, rfl⟩))
  case silent => cases h; exact .inl rfl
  all_goals
    split at h
    · simp_all
    · cases h; exact .inl rfl

end Sys2Proof.Machine
end

