-- ==== Sys2Proof/Tests/Slice0.lean ====
section
/-!
SUPPORT. The model's own tests, with expected values from spec/95_test_vectors.md (the vector is named), and a witness for
each statement that has hypotheses.
-/
namespace Sys2Proof.Tests
open Sys2Proof Sys2Proof.Machine Sys2Proof.Claims

-- One test after another: elaborated side by side, each waiting kernel test holds a thread of its own.
set_option Elab.async false

/-! ## The format check: an ill-formed word for each of its clauses (2.2, V-ENC-1 to V-ENC-8) -/

theorem test_selector_refused : ReqWord.selectorListed 0x0000000000000000 = false := by decide
theorem test_selector_refused_high : ReqWord.selectorListed 0xFF00000000000000 = false := by decide
theorem test_reserved_refused_h0 : ReqWord.reservedZero 0x0100000000000001 = false := by decide
theorem test_reserved_refused_h1 : ReqWord.reservedZero 0x0400000100BEEF92 = false := by decide
theorem test_reserved_refused_hx : ReqWord.reservedZero 0x2020030100000000 = false := by decide
theorem test_unused_refused : ReqWord.unusedZero 0x02000000BE010000 = false := by decide
theorem test_payload_count_refused : ReqWord.payloadCountLegal 0x202003C000000000 = false := by decide
theorem test_payload_unused_refused : ReqWord.payloadUnusedZero 0x2020030000000001 = false := by decide
theorem test_wellFormed_refuses : ∀ w ∈ [0x0000000000000000#64, 0xFF00000000000000#64, 0x0100000000000001#64,
    0x02000000BE010000#64, 0x0400000100BEEF92#64, 0x202003C000000000#64, 0x2020030000000001#64, 0x2020030100000000#64],
    ReqWord.wellFormed w = false := by
  simp only [List.mem_cons, List.not_mem_nil, or_false, forall_eq_or_imp, forall_eq]
  decide +kernel

/-! ## Decoding: the words of 2.2, one per constructor -/

theorem test_decode_crcInit : decode 0x0100000000000000 = .instr .crcInit := by decide
theorem test_decode_crcUpdate : decode 0x02000000BE000000 = .instr (.crcUpdate 0xBE) := by decide
theorem test_decode_crcGen : decode 0x03000000BEEF0000 = .instr (.crcGen 0xBE 0xEF) := by decide
theorem test_decode_crcVerify : decode 0x04000000BEEF9200 = .instr (.crcVerify 0xBE 0xEF 0x92) := by decide
theorem test_decode_linkOpen : decode 0x1000000000000000 = .instr .linkOpen := by decide
theorem test_decode_linkClose : decode 0x1100000000000000 = .instr .linkClose := by decide
theorem test_decode_cmdInit : decode 0x2020030000000000 = .instr .cmdInit := by decide
theorem test_decode_cmdMeasureAirQuality : decode 0x2020080000000000 = .instr .cmdMeasureAirQuality := by decide
theorem test_decode_cmdMeasureRawSignals : decode 0x2020500000000000 = .instr .cmdMeasureRawSignals := by decide
theorem test_decode_cmdGetBaseline : decode 0x2020150000000000 = .instr .cmdGetBaseline := by decide
theorem test_decode_cmdSetBaseline : decode 0x20201E8089738AAE = .instr (.cmdSetBaseline 0x8973 0x8AAE) := by decide
theorem test_decode_cmdSetHumidity : decode 0x2020614019800000 = .instr (.cmdSetHumidity 0x1980) := by decide
theorem test_decode_cmdSelfTest : decode 0x2020320000000000 = .instr .cmdSelfTest := by decide
theorem test_decode_cmdGetFeatureSetVersion : decode 0x20202F0000000000 = .instr .cmdGetFeatureSetVersion := by decide
theorem test_decode_cmdGetSerialId : decode 0x2036820000000000 = .instr .cmdGetSerialId := by decide
theorem test_decode_regRead : decode 0x3000000003000000 = .instr (.regRead 0x03) := by decide

/-- V-ENC-9 to V-ENC-11: well-formed, but not in CMDTAB with that NP. -/
theorem test_decode_invalid_exec : decode 0x2020034000000000 = .invalidExec 0x2003 1 ∧
    decode 0x2020040000000000 = .invalidExec 0x2004 0 ∧ decode 0x20201E4089730000 = .invalidExec 0x201E 1 := by decide

/-- The table numbers bits as R56 does. -/
theorem test_decodeTableWord : decodeTableWord 64 0x2020614019800000 = some (.cmdSetHumidity 0x1980) ∧
    decodeTableWord 64 0 = none := by decide

/-! ## One step -/

/-- The next state, if there is one. -/
def nextState (r : Result) : Option State :=
  match r with
  | .next t => some t
  | .fault _ => none
  | .refused _ => none

/-- The response of the next state of a step. -/
def answer (s : State) : Option Response := (nextState (step s)).bind lastResponse

/-- STATUS and COUNTS of the next state of a step. -/
def statusAndCounts (s : State) : Option (Word × Word) :=
  (nextState (step s)).map fun t => (statusReg t, countsReg t)

/-- An idle engine with a request in its port, and no reset to come before it. -/
def ready (link : Bool) (w : ReqWord) : State := { State.reset with link := link, port := some w, env := [.silent] }

/-- An EXEC of `c` with payload words `ps` in progress in phase `p`, with its trace, and the environment's next input `m`. -/
def during (p : Phase) (c : Command) (ps : List Word) (m : EnvInput) (trace : List Event) : State :=
  { State.reset with
    link := true, phase := p, lastCmd := c.descriptor.opcode, txBuf := frameOf c ps, txLen := txLenOf c,
    txCount := if p = .tx then 0 else txLenOf c, rxLen := rxLenOf c,
    waitMin := if p = .tx then 0 else c.descriptor.delayMs, env := [m], trace := trace }

/-- LINK_OPEN in progress. -/
def bindingState (m : EnvInput) : State := { State.reset with phase := .bind, env := [m] }

/-- Program 1 step 1. -/
theorem test_crcInit : answer (ready false 0x0100000000000000) = some ⟨.ok, 0xFF⟩ := by decide +kernel
/-- V-CRC-U. -/
theorem test_crcUpdate : answer (ready false 0x02000000BE000000) = some ⟨.ok, 0x0C⟩ := by decide +kernel
/-- Program 1 step 8: CRC_UPDATE goes on from CRC = 0xAC. -/
theorem test_crcUpdate_goes_on : answer { ready false 0x0200000031000000 with crc := 0xAC } = some ⟨.ok, 0x75⟩ := by
  decide +kernel
/-- S1. -/
theorem test_crcGen : answer (ready false 0x03000000BEEF0000) = some ⟨.ok, 0x92⟩ := by decide +kernel
/-- V-CRC-V. -/
theorem test_crcVerify_match : answer (ready false 0x04000000BEEF9200) = some ⟨.ok, 1⟩ := by decide +kernel
/-- V-CRC-V: a mismatch is a result, and CRC takes the computed value. -/
theorem test_crcVerify_mismatch : answer (ready false 0x0400000000000000) = some ⟨.ok, 0⟩ ∧
    (nextState (step (ready false 0x0400000000000000))).map (·.crc) = some 0x81 := by decide +kernel
/-- V-CRC-K: "123456789". -/
theorem test_crc8_check_value : crc8 [0x31, 0x32, 0x33, 0x34, 0x35, 0x36, 0x37, 0x38, 0x39] = 0xF7 := by decide +kernel
/-- V-CRC-F and V-CRC-W: words whose CRC tells a swapped byte or bit order. -/
theorem test_crc8_words : crc8 [0x3E, 0xEF] = 0xB1 ∧ crc8 [0x00, 0xFF] = 0x2D ∧ crc8 [0xFF, 0x00] = 0x00 ∧
    crc8 [0x0C, 0x40] = 0x08 := by decide +kernel

/-- V-LNK-1 and V-LNK-2. -/
theorem test_linkOpen_answers : statusAndCounts (bindingState (.bindAnswer true)) = some (0x0001, 0) ∧
    answer (bindingState (.bindAnswer false)) = some ⟨.transport, 0⟩ ∧
    statusAndCounts (bindingState (.bindAnswer false)) = some (0x0010, 0) := by decide +kernel
/-- V-LNK-3. -/
theorem test_linkOpen_open : answer (ready true 0x1000000000000000) = some ⟨.invalid, 0⟩ ∧
    statusAndCounts (ready true 0x1000000000000000) = some (0x0031, 0) := by decide +kernel
/-- V-LNK-4. -/
theorem test_linkClose : answer (ready true 0x1100000000000000) = some ⟨.ok, 0⟩ ∧
    statusAndCounts (ready true 0x1100000000000000) = some (0, 0) := by decide +kernel
/-- V-LNK-5. -/
theorem test_linkClose_closed :
    statusAndCounts { ready false 0x1100000000000000 with err := .invalid } = some (0, 0) := by decide +kernel

/-- V-EX-5: the frame of CMD_SET_BASELINE, P0 first. -/
theorem test_setBaseline_frame : (nextState (step (ready true 0x20201E8089738AAE))).map (·.txBuf) =
    some #v[0x20, 0x1E, 0x89, 0x73, 0xCA, 0x8A, 0xAE, 0xAF] := by decide +kernel
/-- V-EX-6: the frame of CMD_SET_HUMIDITY, padded with zeros in TXBUF, sent as 5 bytes. -/
theorem test_setHumidity_frame : (nextState (step (ready true 0x2020614019800000))).map (fun t => (t.txBuf, t.trace.head?)) =
    some (#v[0x20, 0x61, 0x19, 0x80, 0x56, 0, 0, 0], some (.writeIssued 0x58 [0x20, 0x61, 0x19, 0x80, 0x56])) := by
  decide +kernel
/-- V-EX-11: the opcode whose high byte is not 0x20. -/
theorem test_getSerialId_frame : (nextState (step (ready true 0x2036820000000000))).map (fun t => (t.phase, t.trace.head?)) =
    some (.tx, some (.writeIssued 0x58 [0x36, 0x82])) := by decide +kernel
/-- V-LNK-6: an EXEC on a closed link. -/
theorem test_exec_closed : answer (ready false 0x2036820000000000) = some ⟨.invalid, 0⟩ ∧
    statusAndCounts (ready false 0x2036820000000000) = some (0x0030, 0) ∧
    (nextState (step (ready false 0x2036820000000000))).map (·.lastCmd) = some 0 := by decide +kernel
/-- Program 5 step 6: a refused EXEC writes ERR and RESULT_VALID, and keeps RES0 to RES2, CRC_OK and LAST_CMD (R98). -/
theorem test_refused_exec_keeps_results :
    (nextState (step { ready true 0x2020034000000000 with
        lastCmd := 0x2050, crcOk := 0b011, res0 := 0x1234, res1 := 0x5678, resultValid := true })).map
      (fun t => (statusReg t, t.lastCmd, t.res0, t.res1, t.res2)) = some (0x0331, 0x2050, 0x1234, 0x5678, 0) := by
  decide +kernel
/-- V-ENC-4: the format check writes nothing, not even ERR. -/
theorem test_malformed : answer (ready false 0x02000000BE010000) = some ⟨.invalid, 0⟩ ∧
    statusAndCounts (ready false 0x02000000BE010000) = some (0, 0) := by decide +kernel

/-- V-EX-1: CMD_INIT completes at the end of its Wait without a read. -/
theorem test_init_completes : answer (during .wait .init [] .waitEnd []) = some ⟨.ok, 0⟩ ∧
    (nextState (step (during .wait .init [] .waitEnd []))).map (fun t => (t.phase, statusReg t)) =
      some (.idle, 0x0003) := by decide +kernel
/-- V-EX-2. -/
theorem test_measureAirQuality :
    answer (during .rx .measureAirQuality [] (.readBytes [0x01, 0x02, 0x17, 0x03, 0x04, 0x68]) []) =
      some ⟨.ok, 0x01020304⟩ ∧
    statusAndCounts (during .rx .measureAirQuality [] (.readBytes [0x01, 0x02, 0x17, 0x03, 0x04, 0x68]) []) =
      some (0x0303, 0x6262) := by decide +kernel
/-- V-EX-3. -/
theorem test_measureRawSignals :
    answer (during .rx .measureRawSignals [] (.readBytes [0x12, 0x34, 0x37, 0x56, 0x78, 0x7D]) []) =
      some ⟨.ok, 0x12345678⟩ := by decide +kernel
/-- V-EX-4. -/
theorem test_getBaseline :
    answer (during .rx .getBaseline [] (.readBytes [0x89, 0x73, 0xCA, 0x8A, 0xAE, 0xAF]) []) =
      some ⟨.ok, 0x89738AAE⟩ := by decide +kernel
/-- V-EX-7 and V-EX-8: STATUS after a passed and after a failed self-test. -/
theorem test_selfTest : statusAndCounts (during .rx .selfTest [] (.readBytes [0xD4, 0x00, 0xC6]) []) = some (0x0107, 0x3232) ∧
    statusAndCounts (during .rx .selfTest [] (.readBytes [0x00, 0x00, 0x81]) []) = some (0x0143, 0x3232) := by
  decide +kernel
/-- V-EX-9: a near miss with a right CRC is FUNCTIONAL. -/
theorem test_selfTest_near_miss : answer (during .rx .selfTest [] (.readBytes [0xD4, 0x01, 0xF7]) []) =
    some ⟨.functional, 0⟩ := by decide +kernel
/-- V-EX-10. -/
theorem test_getFeatureSetVersion : answer (during .rx .getFeatureSetVersion [] (.readBytes [0x00, 0x20, 0x07]) []) =
    some ⟨.ok, 0x20⟩ := by decide +kernel
/-- V-EX-11. -/
theorem test_getSerialId : answer (during .rx .getSerialId []
    (.readBytes [0x00, 0x00, 0x81, 0x01, 0x02, 0x17, 0xBE, 0xEF, 0x92]) []) = some ⟨.ok, 0x00000102BEEF⟩ := by
  decide +kernel
/-- V-ERR-1: a short write. -/
theorem test_short_write : statusAndCounts (during .tx .setHumidity [0x1980] (.writeCount 3) []) = some (0x0011, 0x0503) := by
  decide +kernel
/-- V-ERR-3: a short read keeps its prefix and checks nothing. -/
theorem test_short_read : statusAndCounts (during .rx .getSerialId [] (.readBytes [0x00, 0x00, 0x81, 0x01]) []) =
    some (0x0011, 0x9242) := by decide +kernel
/-- V-ERR-5: every group is checked, whichever fails first. -/
theorem test_checksum : answer (during .rx .getSerialId []
      (.readBytes [0x00, 0x00, 0x80, 0x01, 0x02, 0x17, 0xBE, 0xEF, 0x93]) []) = some ⟨.checksum, 0⟩ ∧
    statusAndCounts (during .rx .getSerialId []
      (.readBytes [0x00, 0x00, 0x80, 0x01, 0x02, 0x17, 0xBE, 0xEF, 0x93]) []) = some (0x0221, 0x9292) := by decide +kernel
/-- V-ERR-6: CHECKSUM goes before FUNCTIONAL. -/
theorem test_checksum_before_functional : answer (during .rx .selfTest [] (.readBytes [0x00, 0x00, 0x00]) []) =
    some ⟨.checksum, 0⟩ := by decide +kernel
/-- 2.6: the CRC register reads 0xFF after reset, and number 0x28 is unmapped. -/
theorem test_regRead : answer (ready false 0x3000000001000000) = some ⟨.ok, 0xFF⟩ ∧
    answer (ready false 0x3000000028000000) = some ⟨.invalid, 0⟩ := by decide +kernel
/-- 2.6: RXBUF_8 is number 0x18, TXBUF_0 number 0x20. -/
theorem test_regRead_buffers :
    answer { ready false 0x3000000018000000 with rxBuf := #v[0, 0, 0x81, 1, 2, 0x17, 0xBE, 0xEF, 0x92] } =
      some ⟨.ok, 0x92⟩ ∧
    answer { ready false 0x3000000020000000 with txBuf := #v[0x36, 0x82, 0, 0, 0, 0, 0, 0] } = some ⟨.ok, 0x36⟩ := by
  decide +kernel

/-- 2.7: 25.5, 10.1, 1/3, 2^-8 and the largest word. -/
theorem test_humPack : humPack 0x4039800000000000 = some 0x1980 ∧ humPack 0x4024333333333333 = some 0x0A19 ∧
    humPack 0x3FD5555555555555 = some 0x0055 ∧ humPack 0x3F70000000000000 = some 0x0001 ∧
    humPack 0x406FFFE000000000 = some 0xFFFF := by decide +kernel
/-- A negative zero is 0x0000 (log 13). -/
theorem test_humPack_negative_zero : humPack 0x8000000000000000 = some 0x0000 := by decide +kernel
/-- 2.7: 256.0, -0.5, NaN and +inf are refused. -/
theorem test_humPack_refuses : humPack 0x4070000000000000 = none ∧ humPack 0xBFE0000000000000 = none ∧
    humPack 0x7FF8000000000000 = none ∧ humPack 0x7FF0000000000000 = none := by decide +kernel
/-- R142: a reset goes before the request in the port. -/
theorem test_reset_first : (nextState (step { ready true 0x0100000000000000 with env := [.reset] })).map
    (fun t => (t.link, t.port, t.trace)) = some (false, none, [.resetTaken]) := by decide +kernel
/-- The very next step after withFetchWord runs the word, here from reset. -/
theorem test_withFetchWord : (nextState (step (State.reset.withFetchWord 64 0x03000000BEEF0000))).bind lastResponse =
    some ⟨.ok, 0x92⟩ := by decide +kernel

/-! ## Witnesses: concrete states and operands that meet the hypotheses of the statements -/

theorem txLenOf_ne_zero (c : Command) : txLenOf c ≠ 0#4 := by cases c <;> decide

/-- The states `during` builds meet the invariant. -/
theorem during_inv {p : Phase} {c : Command} {ps : List Word} {m : EnvInput} {trace : List Event}
    (hp : execInProgress p) (hps : ps.length = c.descriptor.ntx) (hr : p = .rx → rxLenOf c ≠ 0#4) :
    EngineInv (during p c ps m trace) where
  fresh := fun h => absurd h (txLenOf_ne_zero c)
  exchange := fun _ => ⟨c, ps, rfl, hps, rfl, rfl, rfl⟩
  txCountLe := by unfold during; dsimp only; split <;> simp [BitVec.le_def]
  rxCountLe := by simp [during, State.reset, BitVec.le_def]
  rxTail := fun i _ => byteAt_replicate 9 i
  crcOkIff := by
    intro i hi
    simp only [during, State.reset]
    constructor
    · intro h; simp at h
    · rintro ⟨h, h', -⟩
      rw [← h] at h'
      exact absurd h' (by simp)
  busy := fun _ => ⟨rfl, txLenOf_ne_zero c, rfl, rfl, rfl, rfl, rfl, rfl⟩
  sent := by
    intro h
    have hne : p ≠ .tx := by rintro rfl; rcases h with h | h <;> cases h
    refine ⟨by simp [during, hne], fun c' hc => ?_⟩
    have h' : Command.ofOpcode c.descriptor.opcode = some c' := hc
    rw [Command.ofOpcode_descriptor] at h'
    cases h'
    simp [during, hne]
  reading := hr
  binding := by rintro rfl; rcases hp with h | h | h <;> cases h
  valid := by simp [during, State.reset]
  stPassIff := by simp [during, State.reset]
  functional := by simp [during, State.reset]
  checksum := by simp [during, State.reset]

/-- An engine that has run no EXEC meets the invariant, idle or (on a closed link) in BIND. -/
theorem no_exec_inv {link : Bool} {p : Phase} {port : Option ReqWord} {env : List EnvInput} {trace : List Event}
    (hp : p = .idle ∨ (p = .bind ∧ link = false)) :
    EngineInv { State.reset with link := link, phase := p, port := port, env := env, trace := trace } where
  fresh := fun _ => ⟨rfl, rfl, rfl⟩
  exchange := fun h => absurd rfl h
  txCountLe := by simp [State.reset]
  rxCountLe := by simp [State.reset]
  rxTail := fun i _ => byteAt_replicate 9 i
  crcOkIff := by intro i hi; simp [State.reset]
  busy := by rcases hp with rfl | ⟨rfl, -⟩ <;> simp [execInProgress]
  sent := by rcases hp with rfl | ⟨rfl, -⟩ <;> simp
  reading := by rcases hp with rfl | ⟨rfl, -⟩ <;> simp
  binding := by rcases hp with rfl | ⟨rfl, rfl⟩ <;> simp
  valid := by simp [State.reset]
  stPassIff := by simp [State.reset]
  functional := by simp [State.reset]
  checksum := by simp [State.reset]

/-- `ready` states are about to accept. -/
theorem ready_accepting (link : Bool) (w : ReqWord) : accepting (ready link w) w := ⟨rfl, rfl, by simp [ready, nextInput]⟩

/-- The EXEC of `c` with the answers `k` and `bytes` to come. -/
def answered (w : ReqWord) (k : Nat) (bytes : List Byte) : State :=
  { ready true w with env := [.writeCount k, .waitEnd, .readBytes bytes] }

theorem witness_EncodeDecodeRoundTrip : decode 0x20201E8089738AAE = .instr (.cmdSetBaseline 0x8973 0x8AAE) := by decide

theorem witness_StepRunsDecodedRequest : accepting (ready true 0x2020320000000000) 0x2020320000000000 ∧
    decode 0x2020320000000000 = .instr .cmdSelfTest := ⟨ready_accepting .., by decide⟩

/-- A refused word, and two that are not: an instruction, and an EXEC that is not in CMDTAB. -/
theorem witness_FormatCheckRefusesWithoutEffect :
    (accepting (ready true 0x0100000000000001) 0x0100000000000001 ∧ ReqWord.wellFormed 0x0100000000000001 = false) ∧
    (accepting (ready true 0x0100000000000000) 0x0100000000000000 ∧ ReqWord.wellFormed 0x0100000000000000 = true) ∧
    (accepting (ready true 0x2020040000000000) 0x2020040000000000 ∧ ReqWord.wellFormed 0x2020040000000000 = true) :=
  ⟨⟨ready_accepting .., by decide⟩, ⟨ready_accepting .., by decide⟩, ready_accepting .., by decide⟩

/-- A valid EXEC; and three that are not: the link closed, NP wrong, CMD unknown. -/
theorem witness_ExecIsValidatedFirst :
    (accepting (ready true 0x2020030000000000) 0x2020030000000000 ∧ ReqWord.wellFormed 0x2020030000000000 = true ∧
      0x2020030000000000#64 >>> 56 = 0x20 ∧ validExec 0x2020030000000000 (ready true 0x2020030000000000)) ∧
    (∀ p ∈ [(false, 0x2020030000000000#64), (true, 0x2020034000000000), (true, 0x2020040000000000)],
      accepting (ready p.1 p.2) p.2 ∧ ReqWord.wellFormed p.2 = true ∧ p.2 >>> 56 = 0x20 ∧
        ¬ validExec p.2 (ready p.1 p.2)) := by
  refine ⟨⟨ready_accepting .., by decide, by decide, ?_⟩, fun p hp => ⟨ready_accepting .., ?_⟩⟩
  · unfold validExec; decide
  · unfold validExec
    revert p
    simp only [List.mem_cons, List.not_mem_nil, or_false, forall_eq_or_imp, forall_eq]
    decide +kernel

theorem witness_CrcInitRestartsCrc : State.reset.phase = .idle := rfl
theorem witness_CrcUpdateFoldsByte : (ready true 0).phase = .idle := rfl
theorem witness_CrcGenerateReplacesCrc : { State.reset with crc := 0x92 }.phase = .idle := rfl
theorem witness_CrcVerifyReportsMatch : (ready false 0).phase = .idle := rfl
theorem witness_CrcRequestsTouchOnlyCrc : isCrcRequest (.crcVerify 0xBE 0xEF 0x92) :=
  .inr (.inr (.inr ⟨_, _, _, rfl⟩))

/-- Patterns of 1 and of 3 bits; bits 0 and 15 of a word. -/
theorem witness_CrcDetectsThreeBitErrors : (groupValid 0xBEEF92 ∧ weight 0x000001 = 1 ∧ weight 0x800101 = 3) ∧
    (0 < 16 ∧ 15 < 16) := by unfold groupValid; decide +kernel

theorem witness_LinkOpenBindsClosedLink : (ready false 0).link = false ∧
    ((ready true 0).link = true ∧ (ready true 0).phase = .idle) ∧
    ((bindingState (.bindAnswer true)).phase = .bind ∧ nextInput (bindingState (.bindAnswer true)) = .bindAnswer true) ∧
    ((bindingState (.bindAnswer false)).phase = .bind ∧
      nextInput (bindingState (.bindAnswer false)) = .bindAnswer false) ∧
    ((bindingState .silent).phase = .bind ∧ nextInput (bindingState .silent) = .silent) := by decide

theorem witness_LinkCloseReleases : ((ready true 0).link = true ∧ (ready true 0).phase = .idle) ∧
    ((ready false 0).link = false ∧ (ready false 0).phase = .idle) := by decide

theorem witness_BareCommandsStart : (.cmdGetSerialId, 0x3682#16, 3) ∈ bareCommands ∧ (.cmdInit, 0x2003#16, 0) ∈ bareCommands ∧
    (ready true 0).link = true ∧ (ready false 0).phase = .idle ∧ (ready false 0).link = false := by decide

theorem witness_SetBaselineStarts : (ready true 0).link = true ∧ (ready false 0).phase = .idle ∧
    (ready false 0).link = false := by decide

theorem witness_SetHumidityStarts : (ready true 1).link = true ∧ (ready false 1).phase = .idle ∧
    (ready false 1).link = false := by decide

/-- Counts 0, TX_LEN - 1 and TX_LEN of CMD_SET_BASELINE. -/
theorem witness_WriteCountDecidesWait : ∀ k ∈ [0, 7, 8],
    (during .tx .setBaseline [1, 2] (.writeCount k) []).phase = .tx ∧
    (during .tx .setBaseline [1, 2] (.writeCount k) []).lastCmd = Command.setBaseline.descriptor.opcode ∧
    nextInput (during .tx .setBaseline [1, 2] (.writeCount k) []) = .writeCount k ∧
    k ≤ (during .tx .setBaseline [1, 2] (.writeCount k) []).txLen.toNat := by
  simp only [List.mem_cons, List.not_mem_nil, or_false, forall_eq_or_imp, forall_eq]
  refine ⟨⟨rfl, rfl, rfl, by decide⟩, ⟨rfl, rfl, rfl, by decide⟩, ⟨rfl, rfl, rfl, by decide⟩⟩

theorem witness_WaitEndReadsOrCompletes :
    ((during .wait .init [] .waitEnd []).phase = .wait ∧ nextInput (during .wait .init [] .waitEnd []) = .waitEnd ∧
      (during .wait .init [] .waitEnd []).rxLen = 0) ∧
    ((during .wait .selfTest [] .waitEnd []).phase = .wait ∧ nextInput (during .wait .selfTest [] .waitEnd []) = .waitEnd ∧
      (during .wait .selfTest [] .waitEnd []).rxLen ≠ 0) :=
  ⟨⟨rfl, rfl, rfl⟩, rfl, rfl, by decide⟩

/-- No byte, one byte short, and all bytes of a 9-byte response. -/
theorem witness_ShortReadKeepsPrefix : ∀ n ∈ [0, 8, 9],
    awaitingRead (during .rx .getSerialId [] (.readBytes (List.replicate n 0x81)) []) .getSerialId ∧
    nextInput (during .rx .getSerialId [] (.readBytes (List.replicate n 0x81)) []) = .readBytes (List.replicate n 0x81) ∧
    (List.replicate n (0x81 : Byte)).length ≤
      (during .rx .getSerialId [] (.readBytes (List.replicate n 0x81)) []).rxLen.toNat := by
  intro n hn
  refine ⟨⟨rfl, rfl, rfl⟩, rfl, ?_⟩
  rw [List.length_replicate]
  revert n
  decide

theorem witness_EveryGroupIsChecked :
    awaitingRead (during .rx .getSerialId [] (.readBytes (List.replicate 9 0)) []) .getSerialId ∧
    nextInput (during .rx .getSerialId [] (.readBytes (List.replicate 9 0)) []) = .readBytes (List.replicate 9 0) ∧
    (List.replicate 9 (0 : Byte)).length = (during .rx .getSerialId [] (.readBytes (List.replicate 9 0)) []).rxLen.toNat :=
  ⟨⟨rfl, rfl, rfl⟩, rfl, rfl⟩

/-- V-ERR-5: the first and the last group fail. -/
theorem witness_ChecksumFailureIsHard : ∀ i ∈ [0, 2],
    awaitingRead (during .rx .getSerialId [] (.readBytes [0, 0, 0x80, 1, 2, 0x17, 0xBE, 0xEF, 0x93]) []) .getSerialId ∧
    nextInput (during .rx .getSerialId [] (.readBytes [0, 0, 0x80, 1, 2, 0x17, 0xBE, 0xEF, 0x93]) []) =
      .readBytes [0, 0, 0x80, 1, 2, 0x17, 0xBE, 0xEF, 0x93] ∧
    ([0, 0, 0x80, 1, 2, 0x17, 0xBE, 0xEF, 0x93] : List Byte).length =
      (during .rx .getSerialId [] (.readBytes [0, 0, 0x80, 1, 2, 0x17, 0xBE, 0xEF, 0x93]) []).rxLen.toNat ∧
    i < Command.getSerialId.descriptor.nrx ∧ passes [0, 0, 0x80, 1, 2, 0x17, 0xBE, 0xEF, 0x93] i = false := by
  intro i hi
  refine ⟨⟨rfl, rfl, rfl⟩, rfl, rfl, ?_⟩
  revert i
  decide +kernel

theorem witness_PairResponseDecodes : ∀ c ∈ [Command.measureAirQuality, .measureRawSignals, .getBaseline],
    let bytes := [0, 0, crc8 [0, 0], 0xFF, 0xFF, crc8 [0xFF, 0xFF]]
    let s := during .rx c [] (.readBytes bytes) []
    s.phase = .rx ∧ s.lastCmd ∈ [0x2008#16, 0x2050#16, 0x2015#16] ∧ s.rxLen = 6 ∧ cleared s ∧
      nextInput s = .readBytes bytes := by
  intro c hc
  exact ⟨rfl, by revert c; decide, by revert c; decide, ⟨rfl, rfl, rfl, rfl, rfl, rfl⟩, rfl⟩

theorem witness_SingleResponseDecodes :
    let s := during .rx .getFeatureSetVersion [] (.readBytes [0, 0x20, crc8 [0, 0x20]]) []
    s.phase = .rx ∧ s.lastCmd = 0x202F ∧ s.rxLen = 3 ∧ cleared s ∧ nextInput s = .readBytes [0, 0x20, crc8 [0, 0x20]] :=
  ⟨rfl, rfl, rfl, ⟨rfl, rfl, rfl, rfl, rfl, rfl⟩, rfl⟩

theorem witness_SerialResponseDecodes :
    let bytes := [0, 0, crc8 [0, 0], 1, 2, crc8 [1, 2], 0xBE, 0xEF, crc8 [0xBE, 0xEF]]
    let s := during .rx .getSerialId [] (.readBytes bytes) []
    s.phase = .rx ∧ s.lastCmd = 0x3682 ∧ s.rxLen = 9 ∧ cleared s ∧ nextInput s = .readBytes bytes :=
  ⟨rfl, rfl, rfl, ⟨rfl, rfl, rfl, rfl, rfl, rfl⟩, rfl⟩

/-- The pattern itself, and the near miss D4 01. -/
theorem witness_SelfTestVerdict : ∀ l₀ ∈ [0x00#8, 0x01#8],
    let s := during .rx .selfTest [] (.readBytes [0xD4, l₀, crc8 [0xD4, l₀]]) []
    s.phase = .rx ∧ s.lastCmd = 0x2032 ∧ s.rxLen = 3 ∧ cleared s ∧ nextInput s = .readBytes [0xD4, l₀, crc8 [0xD4, l₀]] :=
  fun _ _ => ⟨rfl, rfl, rfl, ⟨rfl, rfl, rfl, rfl, rfl, rfl⟩, rfl⟩

/-- A read of all 3 bytes and a short one; counts 2 and 0. -/
theorem witness_WholeExecFollowsSequence : ∀ p ∈ [(2, [0xD4#8, 0x00#8, 0xC6#8]), (2, [0xD4#8]), (0, [])],
    runsExec (answered 0x2020320000000000 p.1 p.2) 0x2020320000000000 .selfTest 0 0 p.1 p.2 := by
  intro p hp
  refine ⟨rfl, rfl, by decide, rfl, ⟨[], rfl⟩, ?_⟩
  revert p
  simp only [List.mem_cons, List.not_mem_nil, or_false, forall_eq_or_imp, forall_eq]
  decide

theorem witness_OneWriteAtMostOneRead :
    (accepting (ready true 0x0100000000000001) 0x0100000000000001 ∧ ReqWord.wellFormed 0x0100000000000001 = false) ∧
    (accepting (ready false 0x2020320000000000) 0x2020320000000000 ∧ 0x2020320000000000#64 >>> 56 = 0x20 ∧
      ¬ validExec 0x2020320000000000 (ready false 0x2020320000000000)) ∧
    runsExec (answered 0x2020320000000000 2 [0xD4, 0x00, 0xC6]) 0x2020320000000000 .selfTest 0 0 2 [0xD4, 0x00, 0xC6] := by
  refine ⟨⟨ready_accepting .., by decide⟩, ⟨ready_accepting .., by decide, ?_⟩, rfl, rfl, by decide, rfl, ⟨[], rfl⟩,
    by decide, by decide⟩
  unfold validExec
  decide

theorem witness_SetBaselineTraffic : runsExec (answered 0x20201E8089738AAE 8 []) 0x20201E8089738AAE .setBaseline 0x8973 0x8AAE
    8 [] := ⟨rfl, rfl, by decide, rfl, ⟨[], rfl⟩, by decide, by decide⟩

/-- A self-test whose write was complete, with the trace that led there. -/
def selfTestWaiting : State :=
  during .wait .selfTest [] .waitEnd
    [.waitStarted 220, .writeAnswered 2, .writeIssued 0x58 [0x20, 0x32], .accepted 0x2020320000000000]

theorem witness_EventsFollowOrder : Ordered selfTestWaiting ∧ ∃ t, step selfTestWaiting = .next t ∧ t.phase = .rx :=
  ⟨rfl, _, rfl, rfl⟩

theorem selfTestWaiting_inv : EngineInv selfTestWaiting := during_inv (.inr (.inl rfl)) rfl (by intro h; cases h)

theorem witness_BusTrafficIsLawful : EngineInv selfTestWaiting ∧ LawfulTrace selfTestWaiting ∧
    ∃ t, step selfTestWaiting = .next t ∧ t.trace.head? = some (.readIssued 0x58 3) := by
  refine ⟨selfTestWaiting_inv, ?_, _, rfl, rfl⟩
  intro e he
  simp only [selfTestWaiting, during, List.mem_cons, List.not_mem_nil, or_false] at he
  rcases he with rfl | rfl | rfl | rfl
  · trivial
  · trivial
  · exact ⟨rfl, .selfTest, [], rfl, by decide⟩
  · trivial

theorem witness_StepKeepsInvariant : EngineInv selfTestWaiting ∧ ∃ t, step selfTestWaiting = .next t ∧ t.phase = .rx :=
  ⟨selfTestWaiting_inv, _, rfl, rfl⟩

theorem witness_StepNeverStops : EngineInv selfTestWaiting := selfTestWaiting_inv

/-- CRC changed by a CRC request, and by reset. -/
theorem witness_CrcRegisterWriters :
    (∃ t, step (ready false 0x03000000BEEF0000) = .next t ∧ t.crc ≠ (ready false 0x03000000BEEF0000).crc) ∧
    (∃ t, step { State.reset with crc := 0x92, env := [.reset] } = .next t ∧
      t.crc ≠ { State.reset with crc := 0x92, env := [.reset] }.crc) :=
  ⟨⟨_, rfl, by decide +kernel⟩, _, rfl, by decide⟩

/-- LINK changed by reset, by a bind answered ok, and by LINK_CLOSE. -/
theorem witness_LinkWriters :
    (∃ t, step { State.reset with link := true, env := [.reset] } = .next t ∧ t.link ≠ true) ∧
    (∃ t, step (bindingState (.bindAnswer true)) = .next t ∧ t.link ≠ (bindingState (.bindAnswer true)).link) ∧
    (∃ t, step (ready true 0x1100000000000000) = .next t ∧ t.link ≠ (ready true 0x1100000000000000).link) :=
  ⟨⟨_, rfl, by decide⟩, ⟨_, rfl, by decide⟩, _, rfl, by decide⟩

/-- A word for each clause, and an EXEC on an open and on a closed link. -/
theorem witness_RequestsWriteOnlyTheirElements : (∀ w ∈ [0x02000000BE000000#64, 0x1000000000000000, 0x1100000000000000,
      0x3000000003000000, 0x0100000000000001, 0x2020040000000000, 0x2020614019800000], ∀ link : Bool,
      accepting (ready link w) w ∧ ∃ t, step (ready link w) = .next t) ∧
    decode 0x02000000BE000000 = .instr (.crcUpdate 0xBE) ∧ isCrcRequest (.crcUpdate 0xBE) ∧
    decode 0x1000000000000000 = .instr .linkOpen ∧ decode 0x1100000000000000 = .instr .linkClose ∧
    decode 0x3000000003000000 = .instr (.regRead 0x03) ∧ decode 0x0100000000000001 = .malformed .reservedField ∧
    decode 0x2020040000000000 = .invalidExec 0x2004 0 ∧
    decode 0x2020614019800000 = .instr (.cmdSetHumidity 0x1980) ∧ isExec (.cmdSetHumidity 0x1980) := by
  refine ⟨fun w _ link => ⟨ready_accepting .., ?_⟩, by decide, .inr (.inl ⟨_, rfl⟩), by decide, by decide, by decide,
    by decide, by decide, by decide, .setHumidity, 0x1980, 0, rfl⟩
  rw [step_accept (w := w) (by simp [ready, nextInput]) rfl rfl]
  cases decode w
  · exact exec_next ..
  · exact ⟨_, rfl⟩
  · exact ⟨_, rfl⟩

theorem witness_ExecIgnoresCrcRegister :
    (accepting (ready true 0x2020320000000000) 0x2020320000000000 ∧ decode 0x2020320000000000 = .instr .cmdSelfTest ∧
      isExec .cmdSelfTest ∧ ∃ t, step (ready true 0x2020320000000000) = .next t) ∧
    (execInProgress selfTestWaiting.phase ∧ nextInput selfTestWaiting ≠ .reset ∧ ∃ t, step selfTestWaiting = .next t) :=
  ⟨⟨ready_accepting .., by decide, ⟨.selfTest, 0, 0, rfl⟩, _, rfl⟩, .inr (.inl rfl), by decide, _, rfl⟩

theorem witness_BusyEngineHoldsRequest : ∃ t,
    { selfTestWaiting with port := some 0x0100000000000000 }.phase ≠ .idle ∧
    nextInput { selfTestWaiting with port := some 0x0100000000000000 } ≠ .reset ∧
    step { selfTestWaiting with port := some 0x0100000000000000 } = .next t :=
  ⟨_, by decide, by decide, rfl⟩

/-- Two silent inputs; and a phase left in BIND, TX and RX. -/
theorem witness_SilentBusHangs :
    ({ bindingState .silent with env := [.silent, .silent] }.phase ≠ .idle ∧
      { bindingState .silent with env := [.silent, .silent] }.env = List.replicate 2 .silent ++ []) ∧
    (∀ s ∈ [bindingState (.bindAnswer false), during .tx .init [] (.writeCount 1) [],
        during .rx .selfTest [] (.readBytes [0xD4]) []], (s.phase = .bind ∨ s.phase = .tx ∨ s.phase = .rx) ∧
      ∃ t, step s = .next t ∧ t.phase ≠ s.phase) := by
  refine ⟨⟨by decide, rfl⟩, ?_⟩
  simp only [List.mem_cons, List.not_mem_nil, or_false, forall_eq_or_imp, forall_eq]
  exact ⟨⟨.inl rfl, _, rfl, by decide⟩, ⟨.inr (.inl rfl), _, rfl, by decide⟩, .inr (.inr rfl), _, rfl, by decide⟩

/-- A reset before a waiting request, and in a phase. -/
theorem witness_ResetTakesEffect : nextInput { ready true 0x0100000000000000 with env := [.reset] } = .reset ∧
    nextInput (bindingState .reset) = .reset := by decide

theorem witness_CompletionReturnsToIdle : ∃ t, step (bindingState (.bindAnswer false)) = .next t ∧
    completesWith (bindingState (.bindAnswer false)) t ⟨.transport, 0⟩ ∧ (bindingState (.bindAnswer false)).phase ≠ .idle ∧
    t.phase = .idle := ⟨_, rfl, ⟨rfl, by decide⟩, by decide, rfl⟩

theorem witness_ErrorResponsesCarryZeroData : EngineInv (bindingState (.bindAnswer false)) ∧
    ∃ t, step (bindingState (.bindAnswer false)) = .next t ∧
      completesWith (bindingState (.bindAnswer false)) t ⟨.transport, 0⟩ :=
  ⟨no_exec_inv (.inr ⟨rfl, rfl⟩), _, rfl, rfl, by decide⟩

/-- A failed bind, a write of TX_LEN - 1 bytes, and a read of RX_LEN - 1 bytes. -/
theorem witness_TransportCauses : ∀ s ∈ [bindingState (.bindAnswer false), during .tx .setHumidity [0x1980] (.writeCount 4) [],
      during .rx .selfTest [] (.readBytes [0xD4, 0x00]) []],
    EngineInv s ∧ ∃ t, step s = .next t ∧ completesWith s t ⟨.transport, 0⟩ := by
  simp only [List.mem_cons, List.not_mem_nil, or_false, forall_eq_or_imp, forall_eq]
  exact ⟨⟨no_exec_inv (.inr ⟨rfl, rfl⟩), _, rfl, rfl, by decide⟩,
    ⟨during_inv (.inl rfl) rfl (by intro h; cases h), _, rfl, rfl, by decide⟩,
    during_inv (.inr (.inr rfl)) rfl (by intro; decide), _, rfl, rfl, by decide⟩

theorem completes_of_head {s : State} {r : Response} (hs : s.trace = [])
    (h : (nextState (step s)).bind (·.trace.head?) = some (.responded r)) :
    ∃ t, step s = .next t ∧ completesWith s t r := by
  cases hr : step s with
  | next t =>
    rw [hr] at h
    have h' : t.trace.head? = some (.responded r) := h
    refine ⟨t, rfl, h', ?_⟩
    rw [hs]
    cases ht : t.trace with
    | nil => rw [ht] at h'; cases h'
    | cons e es => simp
  | fault r => rw [hr] at h; cases h
  | refused r => rw [hr] at h; cases h

theorem witness_ChecksumCauses : EngineInv (during .rx .selfTest [] (.readBytes [0, 0, 0]) []) ∧
    ∃ t, step (during .rx .selfTest [] (.readBytes [0, 0, 0]) []) = .next t ∧
      completesWith (during .rx .selfTest [] (.readBytes [0, 0, 0]) []) t ⟨.checksum, 0⟩ :=
  ⟨during_inv (.inr (.inr rfl)) rfl (by intro; decide), completes_of_head rfl (by decide +kernel)⟩

theorem witness_FunctionalCauses : EngineInv (during .rx .selfTest [] (.readBytes [0, 0, 0x81]) []) ∧
    ∃ t, step (during .rx .selfTest [] (.readBytes [0, 0, 0x81]) []) = .next t ∧
      completesWith (during .rx .selfTest [] (.readBytes [0, 0, 0x81]) []) t ⟨.functional, 0⟩ :=
  ⟨during_inv (.inr (.inr rfl)) rfl (by intro; decide), completes_of_head rfl (by decide +kernel)⟩

/-- A malformed word, an EXEC that is not valid, LINK_OPEN on an open link and a read of number 0x07. -/
theorem witness_InvalidCauses : ∀ w ∈ [0x0100000000000001#64, 0x2020034000000000, 0x1000000000000000, 0x3000000007000000],
    EngineInv (ready true w) ∧ accepting (ready true w) w ∧
      ∃ t, step (ready true w) = .next t ∧ completesWith (ready true w) t ⟨.invalid, 0⟩ := by
  refine fun w hw => ⟨no_exec_inv (.inl rfl), ready_accepting .., completes_of_head rfl ?_⟩
  revert w
  simp only [List.mem_cons, List.not_mem_nil, or_false, forall_eq_or_imp, forall_eq]
  decide +kernel

/-- The first and last number of every mapped range, and of every unmapped one. -/
theorem witness_RegReadReadsMap : (ready true 0).phase = .idle ∧
    (∀ n ∈ [0x00#8, 0x06#8, 0x10#8, 0x18#8, 0x20#8, 0x27#8], ∃ p ∈ registerMap (ready true 0), p.1 = n) ∧
    (∀ n ∈ [0x07#8, 0x0F#8, 0x19#8, 0x1F#8, 0x28#8, 0xFF#8], (¬ ∃ p ∈ registerMap (ready true 0), p.1 = n) ∧
      ((7 ≤ n.toNat ∧ n.toNat ≤ 0x0F) ∨ (0x19 ≤ n.toNat ∧ n.toNat ≤ 0x1F) ∨ 0x28 ≤ n.toNat)) := by
  simp only [List.mem_cons, List.not_mem_nil, or_false, forall_eq_or_imp, forall_eq]
  decide +kernel

theorem witness_IdleIsLeftByRequestsOnly : ∀ p ∈ [(false, 0x1000000000000000#64), (true, 0x2020320000000000#64)],
    (ready p.1 p.2).phase = .idle ∧ ∃ t, step (ready p.1 p.2) = .next t ∧ t.phase ≠ .idle := by
  simp only [List.mem_cons, List.not_mem_nil, or_false, forall_eq_or_imp, forall_eq]
  exact ⟨⟨rfl, _, rfl, by decide⟩, rfl, _, rfl, by decide⟩

theorem scale_down (a : ℚ) {n k : Nat} (h : n + k = 1075) : a * 2 ^ n / 2 ^ 1075 = a / 2 ^ k := by
  rw [← h, pow_add, mul_comm a, mul_div_mul_left _ _ (by positivity)]

/-- 0, -0 (log 13) and 255.99609375, whose word is the greatest; -0.5, 256, and NaN. -/
theorem witness_HumPackTruncates :
    binary64 0 = some 0 ∧ binary64 0x8000000000000000 = some 0 ∧ binary64 0x406FFFE000000000 = some 255.99609375 ∧ binary64 0xBFE0000000000000 = some (-0.5) ∧
    binary64 0x4070000000000000 = some 256 ∧ binary64 0x7FF8000000000000 = none := by
  unfold binary64
  simp only [BitVec.reduceToNat]
  norm_num
  rw [← neg_mul, scale_down _ (k := 45) rfl, scale_down _ (k := 53) rfl, scale_down _ (k := 44) rfl]
  norm_num

theorem witness_FacadeExpandsToRequests : humPack 0x4039800000000000 = some 0x1980 ∧ humPack 0x4070000000000000 = none ∧
    FacadeOp.deinit ≠ .init ∧ (⟨.checksum, 0⟩ : Response).err ≠ .ok ∧
    ¬ (FacadeOp.measureAirQuality = .selfTest ∧ (⟨.checksum, 0⟩ : Response).err = .functional) := by decide +kernel

/-- An offer to an idle and to a busy engine with an empty port, and to a busy one with a full port. -/
theorem witness_OffersFillThePort :
    ({ State.reset with env := [.offer 1] }.port = none ∧ nextInput { State.reset with env := [.offer 1] } = .offer 1) ∧
    ((bindingState (.offer 1)).port = none ∧ nextInput (bindingState (.offer 1)) = .offer 1) ∧
    ({ bindingState (.offer 1) with port := some 2 }.phase ≠ .idle ∧
      nextInput { bindingState (.offer 1) with port := some 2 } = .offer 1) := by decide

end Sys2Proof.Tests
end

section
/-!
PROOFS. Progress of the engine (00_scope.md R10, 60_exceptions.md R143): each environment answer has a next state once LAST_CMD
names a command of CMDTAB, which the invariant gives in every phase of an EXEC.
-/
namespace Sys2Proof.Machine

/-! ## The current command of an EXEC in progress -/

/-- In the phases of an EXEC, LAST_CMD is the opcode of a command of CMDTAB. -/
theorem EngineInv.lastCmd_of_execInProgress {s : State} (h : EngineInv s) (hp : execInProgress s.phase) :
    ∃ c : Command, s.lastCmd = c.descriptor.opcode := by
  obtain ⟨-, htx, -⟩ := h.busy hp
  obtain ⟨c, -, hc, -⟩ := h.exchange htx
  exact ⟨c, hc⟩

/-! ## Each answer has a next state -/

theorem startWait_of_lastCmd {s : State} {c : Command} (hc : s.lastCmd = c.descriptor.opcode) :
    startWait s = .next { s with
      waitMin := c.descriptor.delayMs, phase := .wait, trace := .waitStarted c.descriptor.delayMs :: s.trace } := by
  simp only [startWait, hc, Command.ofOpcode_descriptor]

theorem onBindAnswer_next (ok : Bool) (s : State) : ∃ t, onBindAnswer ok s = .next t := by
  cases ok <;> exact ⟨_, rfl⟩

theorem onWriteCount_next {s : State} {c : Command} (hc : s.lastCmd = c.descriptor.opcode) (k : Nat) :
    ∃ t, onWriteCount k s = .next t := by
  by_cases hk : writeCountOf k s < s.txLen.toNat
  · exact ⟨_, if_pos hk⟩
  · exact ⟨_, (if_neg hk).trans (startWait_of_lastCmd hc)⟩

theorem onWaitEnd_next (s : State) : ∃ t, onWaitEnd s = .next t := by
  by_cases hr : s.rxLen = 0#4
  · exact ⟨_, if_pos hr⟩
  · exact ⟨_, if_neg hr⟩

theorem onReadBytes_next {s : State} {c : Command} (hc : s.lastCmd = c.descriptor.opcode) (bytes : List Byte) :
    ∃ t, onReadBytes bytes s = .next t := by
  by_cases hb : (readBytesOf bytes s).length < s.rxLen.toNat
  · exact ⟨_, if_pos hb⟩
  · simp only [onReadBytes, if_neg hb, hc, Command.ofOpcode_descriptor]
    exact ⟨_, rfl⟩

/-- Only the answers to the BusWrite and to the BusRead need a current command. -/
theorem environmentStep_next {s : State} (h : execInProgress s.phase → ∃ c : Command, s.lastCmd = c.descriptor.opcode)
    (m : EnvInput) : ∃ t, environmentStep m s = .next t := by
  cases m <;> simp only [environmentStep]
  case offer w => exact ⟨_, rfl⟩
  case reset => exact ⟨_, rfl⟩
  case silent => exact ⟨_, rfl⟩
  case bindAnswer ok =>
    split
    · exact onBindAnswer_next ok s
    · exact ⟨_, rfl⟩
  case writeCount k =>
    split
    next hp =>
      obtain ⟨c, hc⟩ := h (.inl hp)
      exact onWriteCount_next hc k
    next => exact ⟨_, rfl⟩
  case waitEnd =>
    split
    · exact onWaitEnd_next s
    · exact ⟨_, rfl⟩
  case readBytes bytes =>
    split
    next hp =>
      obtain ⟨c, hc⟩ := h (.inr (.inr hp))
      exact onReadBytes_next hc bytes
    next => exact ⟨_, rfl⟩

/-! ## Every step -/

theorem runDecoded_next (d : Decoded) (s : State) : ∃ t, runDecoded d s = .next t := by
  cases d with
  | instr i => exact exec_next i s
  | malformed _ => exact ⟨_, rfl⟩
  | invalidExec _ _ => exact ⟨_, rfl⟩

/-- Settles O38: a reset and an acceptance answer from every state, and the answers that need the current command come while an
EXEC is in progress, where the invariant gives it. -/
theorem stepNeverStops : Obligations.StepNeverStops := by
  intro s hs
  obtain ⟨-, hstep⟩ | ⟨-, -, w, -, hstep⟩ | ⟨-, -, hstep⟩ := step_cases s
  · exact ⟨_, hstep⟩
  · rw [hstep]
    exact runDecoded_next ..
  · rw [hstep]
    refine environmentStep_next (fun hp => ?_) _
    rw [dropInput_phase] at hp
    rw [dropInput_lastCmd]
    exact hs.lastCmd_of_execInProgress hp

end Sys2Proof.Machine
end

section
/-!
PROOFS. What each kind of request, each completion of a response and each answer of the environment can do, said once (41_link.md
R85, R86; 42_sequencer.md R98 to R114).
-/
namespace Sys2Proof.Machine
open Sys2Proof.Claims

/-! ## The kinds of requests -/

theorem exec_crcRequest {i : Instr} (hi : isCrcRequest i) (s : State) :
    ∃ c d, exec i s = .next (complete .ok d { s with crc := c }) := by
  obtain rfl | ⟨a, rfl⟩ | ⟨hi, lo, rfl⟩ | ⟨hi, lo, e, rfl⟩ := hi <;> exact ⟨_, _, rfl⟩

theorem exec_linkOpen_closed {s : State} (hl : s.link = false) : exec .linkOpen s =
    .next { s with phase := .bind, trace := .bindIssued Config.busId Config.busAddress :: s.trace } := by
  simp [exec, execLinkOpen, hl]

theorem exec_linkOpen_open {s : State} (hl : s.link = true) : exec .linkOpen s = .next (completeError .invalid s) := by
  simp [exec, execLinkOpen, hl]

/-- The release writes LINK and, on an open link only, records the BusRelease (R86). -/
theorem releaseLink_eq (s : State) : releaseLink s =
    { s with link := false, trace := (if s.link then [.released] else []) ++ s.trace } := by
  cases s with
  | mk link => cases link <;> rfl

theorem exec_linkClose (s : State) : exec .linkClose s = .next (complete .ok 0#64 { s with
    link := false, err := .ok, trace := (if s.link then [.released] else []) ++ s.trace }) := by
  simp only [exec, execLinkClose, releaseLink_eq]

theorem exec_regRead (n : Byte) (s : State) : ∃ r : Response, exec (.regRead n) s = .next (complete r.err r.data s) := by
  simp only [exec, execRegRead]
  cases readReg n s with
  | some v => exact ⟨⟨.ok, v.zeroExtend 64⟩, rfl⟩
  | none => exact ⟨⟨.invalid, 0#64⟩, rfl⟩

theorem execParts_execInstr (c : Command) (p0 p1 : Word) : ∃ ps, execParts (execInstr c p0 p1) = some (c, ps) := by
  cases c <;> exact ⟨_, rfl⟩

theorem isExec_of_execParts {i : Instr} {c : Command} {ps : List Word} (h : execParts i = some (c, ps)) : isExec i := by
  cases i with
  | cmdSetBaseline p0 p1 => exact ⟨.setBaseline, p0, p1, rfl⟩
  | cmdSetHumidity p0 => exact ⟨.setHumidity, p0, 0, rfl⟩
  | crcInit | crcUpdate | crcGen | crcVerify | linkOpen | linkClose | regRead => cases h
  | _ => refine ⟨c, 0, 0, ?_⟩; cases h; rfl

/-- An EXEC starts its command on an open link and is refused on a closed one (R97). -/
theorem exec_isExec {i : Instr} (hi : isExec i) : ∃ c ps, ∀ s, exec i s = startExec c ps s := by
  obtain ⟨c, p0, p1, rfl⟩ := hi
  obtain ⟨ps, hps⟩ := execParts_execInstr c p0 p1
  exact ⟨c, ps, exec_execParts hps⟩

/-- Only a CRC request writes CRC at its acceptance (R18). -/
theorem exec_crc {i : Instr} {s t : State} (hi : ¬ isCrcRequest i) (h : exec i s = .next t) : t.crc = s.crc := by
  cases hp : execParts i with
  | some p =>
    rw [exec_execParts (c := p.1) (ps := p.2) hp] at h
    obtain ⟨-, rfl⟩ | ⟨-, rfl⟩ := startExec_cases h <;> rfl
  | none =>
    cases i <;> simp [execParts] at hp
    case linkOpen =>
      cases hl : s.link
      · cases (exec_linkOpen_closed hl).symm.trans h; rfl
      · cases (exec_linkOpen_open hl).symm.trans h; rfl
    case linkClose => cases (exec_linkClose s).symm.trans h; rfl
    case regRead n =>
      obtain ⟨r, hr⟩ := exec_regRead n s
      cases hr.symm.trans h; rfl
    all_goals exact absurd (by simp [isCrcRequest]) hi

/-! ## The answers to a bus operation and to the Wait -/

theorem onBindAnswer_cases {ok : Bool} {s t : State} (h : onBindAnswer ok s = .next t) :
    (ok = true ∧ t = complete .ok 0#64 { s with link := true, err := .ok, trace := .bindAnswered true :: s.trace }) ∨
    (ok = false ∧ t = completeError .transport { s with trace := .bindAnswered false :: s.trace }) := by
  cases ok <;> cases h <;> simp

/-- The count of a BusWrite is recorded (R101). -/
def afterWrite (k : Nat) (s : State) : State :=
  { s with txCount := BitVec.ofNat 4 (writeCountOf k s), trace := .writeAnswered (writeCountOf k s) :: s.trace }

theorem onWriteCount_cases {k : Nat} {s t : State} (h : onWriteCount k s = .next t) :
    (writeCountOf k s < s.txLen.toNat ∧ t = completeError .transport (afterWrite k s)) ∨
    (s.txLen.toNat ≤ writeCountOf k s ∧ startWait (afterWrite k s) = .next t) := by
  by_cases hk : writeCountOf k s < s.txLen.toNat
  · cases (if_pos hk).symm.trans h
    exact .inl ⟨hk, rfl⟩
  · exact .inr ⟨by omega, (if_neg hk).symm.trans h⟩

theorem onWaitEnd_cases {s t : State} (h : onWaitEnd s = .next t) :
    (s.rxLen = 0#4 ∧ t = completeExec 0#64 { s with trace := .waitEnded :: s.trace }) ∨
    (s.rxLen ≠ 0#4 ∧ t = { s with
      phase := .rx, trace := .readIssued Config.busAddress s.rxLen.toNat :: .waitEnded :: s.trace }) := by
  by_cases hr : s.rxLen = 0#4
  · cases (if_pos hr).symm.trans h
    exact .inl ⟨hr, rfl⟩
  · cases (if_neg hr).symm.trans h
    exact .inr ⟨hr, rfl⟩

/-- The bytes of a BusRead are recorded (R104). -/
def afterRead (bytes : List Byte) (s : State) : State :=
  { s with
    rxBuf   := bufWrite (readBytesOf bytes s) s.rxBuf
    rxCount := BitVec.ofNat 4 (readBytesOf bytes s).length
    trace   := .readAnswered (readBytesOf bytes s) :: s.trace }

theorem onReadBytes_cases {bytes : List Byte} {s t : State} (h : onReadBytes bytes s = .next t) :
    ((readBytesOf bytes s).length < s.rxLen.toNat ∧ t = completeError .transport (afterRead bytes s)) ∨
    (s.rxLen.toNat ≤ (readBytesOf bytes s).length ∧ ∃ c, Command.ofOpcode s.lastCmd = some c ∧
      t = checkResponse c.descriptor (afterRead bytes s)) := by
  by_cases hb : (readBytesOf bytes s).length < s.rxLen.toNat
  · cases (if_pos hb).symm.trans h
    exact .inl ⟨hb, rfl⟩
  · refine .inr ⟨by omega, ?_⟩
    simp only [onReadBytes, if_neg hb] at h
    split at h
    next c hc => cases h; exact ⟨c, hc, rfl⟩
    next => cases h

/-! ## The check and the decode of a response -/

/-- The verdicts of the groups are recorded (R105). -/
def afterCheck (nrx : Nat) (s : State) : State := { s with crcOk := crcVerdicts s.rxBuf nrx s.crcOk }

/-- A response is decoded when all its groups pass, and is a hard failure otherwise (R106). -/
theorem checkResponse_cases {d : Descriptor} (hd : d.nrx ≤ 3) (s : State) :
    ((∀ i, i < d.nrx → groupPasses s.rxBuf i = true) ∧ checkResponse d s = decodeResponse d.kind (afterCheck d.nrx s)) ∨
    ((∃ i, i < d.nrx ∧ groupPasses s.rxBuf i = false) ∧
      checkResponse d s = completeError .checksum (afterCheck d.nrx s)) := by
  by_cases hpass : allPass d.nrx (afterCheck d.nrx s).crcOk = true
  · exact .inl ⟨(allPass_iff _ hd _).1 hpass, if_pos hpass⟩
  · refine .inr ⟨?_, if_neg hpass⟩
    have := mt (allPass_iff _ hd s.crcOk).2 hpass
    simpa using this

/-- A decode writes the result elements only, and completes (R107 to R112). -/
theorem decodeResponse_writes (k : DecodeKind) (s : State) : ∃ (e : ErrCode) (d : BitVec 64) (r0 r1 r2 : Word) (p : Bool),
    decodeResponse k s = complete e d
      { s with res0 := r0, res1 := r1, res2 := r2, stPass := p, err := e, resultValid := true } := by
  cases k <;> exact ⟨_, _, _, _, _, _, rfl⟩

/-! ## What an EXEC in progress leaves as it was -/

/-- What no answer to an EXEC in progress changes: CRC, LINK, the port, and which requests were accepted (R15, R18, R35). -/
structure ExecFrame (s t : State) : Prop where
  crc         : t.crc = s.crc
  link        : t.link = s.link
  port        : t.port = s.port
  acceptances : acceptancesIn t.trace = acceptancesIn s.trace

theorem ExecFrame.refl (s : State) : ExecFrame s s := ⟨rfl, rfl, rfl, rfl⟩

theorem onWriteCount_frame {k : Nat} {s t : State} (h : onWriteCount k s = .next t) : ExecFrame s t := by
  obtain ⟨-, rfl⟩ | ⟨-, hw⟩ := onWriteCount_cases h
  · exact ⟨rfl, rfl, rfl, rfl⟩
  · obtain ⟨c, -, rfl⟩ := startWait_cases hw
    exact ⟨rfl, rfl, rfl, rfl⟩

theorem onWaitEnd_frame {s t : State} (h : onWaitEnd s = .next t) : ExecFrame s t := by
  obtain ⟨-, rfl⟩ | ⟨-, rfl⟩ := onWaitEnd_cases h <;> exact ⟨rfl, rfl, rfl, rfl⟩

theorem checkResponse_frame (c : Command) (s : State) : ExecFrame s (checkResponse c.descriptor s) := by
  obtain ⟨-, hr⟩ | ⟨-, hr⟩ := checkResponse_cases c.nrx_le s
  · obtain ⟨e, data, r0, r1, r2, p, hdec⟩ := decodeResponse_writes c.descriptor.kind (afterCheck c.descriptor.nrx s)
    rw [hr, hdec]
    exact ⟨rfl, rfl, rfl, rfl⟩
  · rw [hr]
    exact ⟨rfl, rfl, rfl, rfl⟩

theorem onReadBytes_frame {bytes : List Byte} {s t : State} (h : onReadBytes bytes s = .next t) : ExecFrame s t := by
  obtain ⟨-, rfl⟩ | ⟨-, c, -, rfl⟩ := onReadBytes_cases h
  · exact ⟨rfl, rfl, rfl, rfl⟩
  · obtain ⟨hcrc, hlink, hport, hacc⟩ := checkResponse_frame c (afterRead bytes s)
    exact ⟨hcrc, hlink, hport, hacc⟩

/-- An input other than reset is an offer to the empty port, the answer to a bind, or leaves the frame as it was. -/
theorem environmentStep_frame {m : EnvInput} {s t : State} (hm : m ≠ .reset) (h : environmentStep m s = .next t) :
    ExecFrame s t ∨
    (∃ w, s.port = none ∧ t = { s with port := some w, trace := .offered w :: s.trace }) ∨
    (∃ ok, m = .bindAnswer ok ∧ s.phase = .bind ∧ onBindAnswer ok s = .next t) := by
  obtain rfl | ⟨w, -, hport, rfl⟩ | ⟨rfl, -⟩ | hbind | ⟨k, -, -, hans⟩ | ⟨-, -, hans⟩ | ⟨bytes, -, -, hans⟩ :=
    environmentStep_cases h
  · exact .inl (.refl _)
  · exact .inr (.inl ⟨w, hport, rfl⟩)
  · exact absurd rfl hm
  · exact .inr (.inr hbind)
  · exact .inl (onWriteCount_frame hans)
  · exact .inl (onWaitEnd_frame hans)
  · exact .inl (onReadBytes_frame hans)

theorem environmentStep_crc {m : EnvInput} {s t : State} (hm : m ≠ .reset) (h : environmentStep m s = .next t) :
    t.crc = s.crc := by
  obtain hf | ⟨w, -, rfl⟩ | ⟨ok, -, -, hb⟩ := environmentStep_frame hm h
  · exact hf.crc
  · rfl
  · obtain ⟨-, rfl⟩ | ⟨-, rfl⟩ := onBindAnswer_cases hb <;> rfl

/-- Of the inputs, only the bind's answer ok writes LINK (R85). -/
theorem environmentStep_link {m : EnvInput} {s t : State} (hm : m ≠ .reset) (h : environmentStep m s = .next t) :
    t.link = s.link ∨ (s.phase = .bind ∧ m = .bindAnswer true ∧ t.link = true) := by
  obtain hf | ⟨w, -, rfl⟩ | ⟨ok, rfl, hp, hb⟩ := environmentStep_frame hm h
  · exact .inl hf.link
  · exact .inl rfl
  · obtain ⟨rfl, rfl⟩ | ⟨-, rfl⟩ := onBindAnswer_cases hb
    · exact .inr ⟨hp, rfl, rfl⟩
    · exact .inl rfl

/-- A request in the port stays there through every input, and none is accepted (R35, R95). -/
theorem environmentStep_holdsRequest {m : EnvInput} {s t : State} {w : ReqWord} (hm : m ≠ .reset)
    (hw : s.port = some w) (h : environmentStep m s = .next t) :
    t.port = some w ∧ acceptancesIn t.trace = acceptancesIn s.trace := by
  obtain hf | ⟨v, hport, -⟩ | ⟨ok, -, -, hb⟩ := environmentStep_frame hm h
  · exact ⟨hf.port.trans hw, hf.acceptances⟩
  · cases hport.symm.trans hw
  · obtain ⟨-, rfl⟩ | ⟨-, rfl⟩ := onBindAnswer_cases hb <;> exact ⟨hw, rfl⟩

/-- An idle engine stays idle through every input of the environment (R16). -/
theorem environmentStep_idle {m : EnvInput} {s t : State} (hp : s.phase = .idle) (h : environmentStep m s = .next t) :
    t.phase = .idle := by
  obtain rfl | ⟨w, -, -, rfl⟩ | ⟨-, rfl⟩ | ⟨ok, -, hq, -⟩ | ⟨k, -, hq, -⟩ | ⟨-, hq, -⟩ | ⟨bytes, -, hq, -⟩ :=
    environmentStep_cases h
  · exact hp
  · exact hp
  · rfl
  all_goals cases hp.symm.trans hq

end Sys2Proof.Machine
end

section
/-!
PROOFS. The invariant of the engine's state (10_state.md R16 to R31): one lemma per kind of change an operation makes, and from
them that reset meets it and every step keeps it.
-/
namespace Sys2Proof.Machine

/-! ## Lengths and words -/

theorem txLenOf_pos (c : Command) : txLenOf c ≠ 0#4 := by cases c <;> decide

theorem rxLenOf_toNat (c : Command) : (rxLenOf c).toNat = 3 * c.descriptor.nrx := by cases c <;> rfl

/-- RX_LEN of the current command (R20, R70). -/
theorem EngineInv.rxLen_toNat {s : State} (h : EngineInv s) (htx : s.txLen ≠ 0#4) {c : Command}
    (hc : s.lastCmd = c.descriptor.opcode) : s.rxLen.toNat = 3 * c.descriptor.nrx := by
  obtain ⟨c', -, hc', -, -, hrx, -⟩ := h.exchange htx
  cases Command.opcode_injective (hc.symm.trans hc')
  rw [hrx, rxLenOf_toNat]

theorem rxWord_eq_zero {buf : Vector Byte 9} {i : Nat} (h : ∀ j, 3 * i ≤ j → byteAt buf j = 0#8) : rxWord buf i = 0#16 := by
  rw [rxWord, h _ (by omega), h _ (by omega)]
  rfl

theorem append_bytes_inj {a b a' b' : Byte} (h : a ++ b = a' ++ b') : a = a' ∧ b = b' := by
  have high (x y : Byte) : (x ++ y).extractLsb' 8 8 = x :=
    (extract_append_high x y 8 8 (by decide)).trans (extract_whole x)
  have low (x y : Byte) : (x ++ y).extractLsb' 0 8 = y :=
    (extract_append_low x y 0 8 (by decide)).trans (extract_whole y)
  exact ⟨by rw [← high a b, h, high], by rw [← low a b, h, low]⟩

/-- The self-test pattern is the word D400 (R24, R111). -/
theorem selfTestPasses_eq (buf : Vector Byte 9) : selfTestPasses buf = (rxWord buf 0 == 0xD400#16) := by
  rw [Bool.eq_iff_iff]
  simp only [selfTestPasses, rxWord, Bool.and_eq_true, beq_iff_eq]
  constructor
  · rintro ⟨h0, h1⟩
    rw [h0, h1]
    rfl
  · exact append_bytes_inj (a' := 0xD4#8) (b' := 0x00#8)

/-! ## Reset, and the elements the invariant does not speak of -/

theorem not_execInProgress_idle {p : Phase} (h : p = .idle) : ¬ execInProgress p := by subst h; simp [execInProgress]

theorem not_execInProgress_bind : ¬ execInProgress .bind := by simp [execInProgress]

theorem engineInv_reset : EngineInv State.reset where
  fresh      := fun _ => ⟨rfl, rfl, rfl⟩
  exchange   := fun h => absurd rfl h
  txCountLe  := by decide
  rxCountLe  := by decide
  rxTail     := fun i _ => byteAt_replicate 9 i
  crcOkIff   := fun i _ => by simp [State.reset]
  busy       := fun h => absurd h (not_execInProgress_idle rfl)
  sent       := nofun
  reading    := nofun
  binding    := nofun
  valid      := nofun
  stPassIff  := ⟨nofun, fun h => nomatch h.1⟩
  functional := nofun
  checksum   := nofun

/-- The invariant does not speak of CRC, of the port, or of the model's own fields. -/
theorem EngineInv.setHost {s : State} (h : EngineInv s) (crc : Byte) (port : Option ReqWord) (env : List EnvInput) (draws : Nat)
    (trace : List Event) :
    EngineInv { s with crc := crc, port := port, env := env, draws := draws, trace := trace } := { h with }

theorem dropInput_eq (s : State) : dropInput s = { s with env := (dropInput s).env, draws := (dropInput s).draws } := by
  unfold dropInput
  split <;> rfl

theorem EngineInv.dropInput {s : State} (h : EngineInv s) : EngineInv (dropInput s) := by
  rw [dropInput_eq]
  exact h.setHost ..

theorem engineInv_takeReset (s : State) : EngineInv (takeReset s) := engineInv_reset.setHost ..

/-! ## Completions and refusals -/

/-- An idle engine has nothing in progress. -/
theorem EngineInv.setIdle {s : State} (h : EngineInv s) : EngineInv { s with phase := .idle } :=
  { h with
    busy    := fun hq => absurd hq (not_execInProgress_idle rfl)
    sent    := nofun
    reading := nofun
    binding := nofun }

theorem EngineInv.complete {s : State} (h : EngineInv s) (e : ErrCode) (d : BitVec 64) : EngineInv (complete e d s) :=
  h.setIdle.setHost ..

/-- A completion that says nothing of a response (R85, R86, R143) may write LINK and ERR. -/
theorem EngineInv.completeWith {s : State} (h : EngineInv s) {e : ErrCode} (hf : e ≠ .functional) (hc : e ≠ .checksum)
    (link : Bool) (r : ErrCode) (d : BitVec 64) : EngineInv (Machine.complete r d { s with link := link, err := e }) :=
  { h.complete r d with
    busy       := fun hq => absurd hq (not_execInProgress_idle rfl)
    binding    := nofun
    functional := fun he => absurd he hf
    checksum   := fun he => absurd he hc }

theorem EngineInv.completeError {s : State} (h : EngineInv s) {e : ErrCode} (hf : e ≠ .functional) (hc : e ≠ .checksum) :
    EngineInv (completeError e s) := h.completeWith hf hc s.link e 0#64

/-- A refused EXEC marks the last result stale (R98). -/
theorem EngineInv.refuseExec {s : State} (h : EngineInv s) : EngineInv (refuseExec s) :=
  { h.complete .invalid 0#64 with
    busy       := fun hq => absurd hq (not_execInProgress_idle rfl)
    valid      := nofun
    stPassIff  := ⟨nofun, fun h => nomatch h.1⟩
    functional := nofun
    checksum   := nofun }

/-! ## The start of a bind and of an EXEC -/

theorem EngineInv.startBind {s : State} (h : EngineInv s) (hl : s.link = false) : EngineInv { s with phase := .bind } :=
  { h with
    busy    := fun hq => absurd hq not_execInProgress_bind
    sent    := nofun
    reading := nofun
    binding := fun _ => hl }

theorem engineInv_beginExec {s : State} (hl : s.link = true) {c : Command} {ps : List Word}
    (hps : ps.length = c.descriptor.ntx) : EngineInv (beginExec c ps s) where
  fresh      := fun h => absurd h (txLenOf_pos c)
  exchange   := fun _ => ⟨c, ps, rfl, hps, rfl, rfl, rfl⟩
  txCountLe  := by simp [BitVec.le_def]
  rxCountLe  := by simp [BitVec.le_def]
  rxTail     := fun i _ => byteAt_replicate 9 i
  crcOkIff   := fun i _ => by
    refine ⟨fun h => by simp at h, fun ⟨hr, hi, _⟩ => ?_⟩
    rw [← hr] at hi
    exact absurd hi (by simp)
  busy       := fun _ => ⟨hl, txLenOf_pos c, rfl, rfl, rfl, rfl, rfl, rfl⟩
  sent       := nofun
  reading    := nofun
  binding    := nofun
  valid      := nofun
  stPassIff  := ⟨nofun, fun h => nomatch h.1⟩
  functional := nofun
  checksum   := nofun

/-! ## The TX and WAIT phases -/

/-- The result elements as the start step cleared them (R99). -/
structure NoResult (s : State) : Prop where
  err         : s.err = .ok
  resultValid : s.resultValid = false
  stPass      : s.stPass = false
  res0        : s.res0 = 0#16
  res1        : s.res1 = 0#16
  res2        : s.res2 = 0#16

theorem EngineInv.noResult {s : State} (h : EngineInv s) (hp : execInProgress s.phase) : NoResult s := by
  obtain ⟨-, -, herr, hv, -, h0, h1, h2⟩ := h.busy hp
  refine ⟨herr, hv, Bool.eq_false_iff.2 fun hst => ?_, h0, h1, h2⟩
  obtain ⟨hv', -⟩ := h.stPassIff.1 hst
  cases hv.symm.trans hv'

theorem EngineInv.afterWrite {s : State} (h : EngineInv s) (hp : s.phase = .tx) (k : Nat) : EngineInv (afterWrite k s) :=
  { h with
    txCountLe := by
      have : writeCountOf k s ≤ s.txLen.toNat := Nat.min_le_right ..
      rw [BitVec.le_def]
      exact (BitVec.toNat_ofNat ..).trans_le ((Nat.mod_le ..).trans this)
    sent      := by rintro (hq | hq) <;> cases hp.symm.trans hq
    valid     := fun hv => by cases (h.noResult (.inl hp)).resultValid.symm.trans hv }

/-- The Wait starts when the whole frame was sent (R101). -/
theorem EngineInv.startWait {s t : State} (h : EngineInv s) (hp : s.phase = .tx) (hfull : s.txCount = s.txLen)
    (ht : startWait s = .next t) : EngineInv t := by
  obtain ⟨c, hc, rfl⟩ := startWait_cases ht
  exact { h with
    busy    := fun _ => h.busy (.inl hp)
    sent    := fun _ => ⟨hfull, fun c' hc' => by cases hc.symm.trans hc'; rfl⟩
    reading := nofun
    binding := nofun }

theorem EngineInv.onWriteCount {s t : State} {k : Nat} (h : EngineInv s) (hp : s.phase = .tx)
    (ht : onWriteCount k s = .next t) : EngineInv t := by
  obtain ⟨-, rfl⟩ | ⟨hk, ht⟩ := onWriteCount_cases ht
  · exact (h.afterWrite hp k).completeError nofun nofun
  · have hfull : writeCountOf k s = s.txLen.toNat := Nat.le_antisymm (Nat.min_le_right ..) hk
    refine (h.afterWrite hp k).startWait hp ?_ ht
    simp [Machine.afterWrite, hfull]

/-- The BusRead of a command with a response is issued (R102). -/
theorem EngineInv.startRead {s : State} (h : EngineInv s) (hp : s.phase = .wait) (hr : s.rxLen ≠ 0#4) :
    EngineInv { s with phase := .rx } :=
  { h with
    busy    := fun _ => h.busy (.inr (.inl hp))
    sent    := fun _ => h.sent (.inl hp)
    reading := fun _ => hr
    binding := nofun }

/-! ## The result of an EXEC -/

/-- The result elements as a completed EXEC leaves them (R23 to R25, R111): the received words, and the self-test's verdict. -/
def withResult (s : State) : State :=
  { s with
    resultValid := true
    res0        := rxWord s.rxBuf 0
    res1        := rxWord s.rxBuf 1
    res2        := rxWord s.rxBuf 2
    stPass      := s.lastCmd == 0x2032#16 && rxWord s.rxBuf 0 == 0xD400#16
    err         := if s.lastCmd = 0x2032#16 ∧ rxWord s.rxBuf 0 ≠ 0xD400#16 then .functional else .ok }

/-- How many response words a decode kind takes (R107 to R111). -/
def DecodeKind.words : DecodeKind → Nat
  | .none => 0
  | .single | .selfTest => 1
  | .pair => 2
  | .serial48 => 3

theorem descriptor_nrx (c : Command) : c.descriptor.nrx = DecodeKind.words c.descriptor.kind := by cases c <;> rfl

theorem kind_selfTest_iff (c : Command) : c.descriptor.kind = .selfTest ↔ c.descriptor.opcode = 0x2032#16 := by
  cases c <;> decide

theorem completeExec_of_eq {s r : State} (h : { s with resultValid := true } = r) (d : BitVec 64) :
    completeExec d s = complete r.err d r := by
  subst h
  rfl

/-- Every decode kind leaves the result elements alike: those it does not write hold their value already. -/
theorem decodeResponse_eq {k : DecodeKind} {s : State} (hk : k = .selfTest ↔ s.lastCmd = 0x2032#16) (hs : NoResult s)
    (htail : ∀ i, DecodeKind.words k ≤ i → rxWord s.rxBuf i = 0#16) :
    ∃ e d, decodeResponse k s = complete e d (withResult s) := by
  obtain ⟨herr, hv, hst, h0, h1, h2⟩ := hs
  cases k with
  | selfTest => exact ⟨_, _, completeExec_of_eq (by simp_all [withResult, DecodeKind.words, selfTestPasses_eq]) _⟩
  | none | pair | single | serial48 =>
    exact ⟨_, _, completeExec_of_eq (by simp_all [withResult, DecodeKind.words]) _⟩

theorem EngineInv.withResult {s : State} (h : EngineInv s) (hp : s.phase = .idle) (htx : s.txLen ≠ 0#4)
    (hsent : s.txCount = s.txLen) (hread : s.rxCount = s.rxLen)
    (hpass : ∀ i, 3 * i + 2 < s.rxLen.toNat → groupPasses s.rxBuf i = true) : EngineInv (withResult s) :=
  { h with
    busy       := fun hq => absurd hq (not_execInProgress_idle hp)
    valid      := fun _ => ⟨htx, hsent, hread, hpass, rfl, rfl, rfl⟩
    stPassIff  := by simp [Machine.withResult]
    functional := fun he => by
      simp only [Machine.withResult] at he ⊢
      split at he
      next hst => simp [hst.1, hst.2]
      next => cases he
    checksum   := fun he => by
      simp only [Machine.withResult] at he
      split at he <;> cases he }

/-- The decode of a response moved in full, all of whose groups passed. The phase is still that of the EXEC, so the invariant is
taken of the engine that has left it. -/
theorem EngineInv.decodeResponse {s : State} (h : EngineInv { s with phase := .idle }) {c : Command}
    (hc : s.lastCmd = c.descriptor.opcode) (hs : NoResult s) (htx : s.txLen ≠ 0#4) (hsent : s.txCount = s.txLen)
    (hread : s.rxCount = s.rxLen) (hpass : ∀ i, i < c.descriptor.nrx → groupPasses s.rxBuf i = true) :
    EngineInv (decodeResponse c.descriptor.kind s) := by
  have hlen : s.rxLen.toNat = 3 * c.descriptor.nrx := h.rxLen_toNat htx hc
  have htail : ∀ i, DecodeKind.words c.descriptor.kind ≤ i → rxWord s.rxBuf i = 0#16 := fun i hi =>
    rxWord_eq_zero fun j hj => h.rxTail j (by rw [hread, hlen, descriptor_nrx]; omega)
  obtain ⟨e, d, hdec⟩ := decodeResponse_eq (by rw [hc, kind_selfTest_iff]) hs htail
  rw [hdec]
  exact (h.withResult rfl htx hsent hread fun i (hi : 3 * i + 2 < s.rxLen.toNat) => hpass i (by omega)).complete e d

/-- A command without a response completes when the Wait ends (R102, R107); the others read. -/
theorem EngineInv.onWaitEnd {s t : State} (h : EngineInv s) (hp : s.phase = .wait) (ht : onWaitEnd s = .next t) :
    EngineInv t := by
  have hbusy : execInProgress s.phase := .inr (.inl hp)
  obtain ⟨hr, rfl⟩ | ⟨hr, rfl⟩ := onWaitEnd_cases ht
  · obtain ⟨-, htx, -, -, hread, -⟩ := h.busy hbusy
    obtain ⟨hsent, -⟩ := h.sent (.inl hp)
    obtain ⟨c, hc⟩ := h.lastCmd_of_execInProgress hbusy
    have hn : c.descriptor.nrx = 0 := by
      have := h.rxLen_toNat htx hc
      rw [hr] at this
      simpa using this.symm
    have hk : c.descriptor.kind = .none := by
      have := (descriptor_nrx c).symm.trans hn
      revert this
      cases c.descriptor.kind <;> simp [DecodeKind.words]
    have := (h.setIdle.setHost s.crc s.port s.env s.draws (.waitEnded :: s.trace)).decodeResponse
      (s := { s with trace := .waitEnded :: s.trace }) hc { h.noResult hbusy with } htx hsent (hread.trans hr.symm)
      (by simp [hn])
    rwa [hk] at this
  · exact (h.startRead hp hr).setHost ..

/-! ## The RX phase -/

/-- Received bytes with their verdicts, on an engine that has left RX (R104, R105). -/
theorem EngineInv.receive {s : State} (h : EngineInv s) (hp : s.phase = .rx) {bytes : List Byte}
    (hb : bytes.length ≤ s.rxLen.toNat) {v : BitVec 3}
    (hv : ∀ i, i < 3 → (v.getLsbD i = true ↔ bytes.length = s.rxLen.toNat ∧ 3 * i + 2 < s.rxLen.toNat ∧
      groupPasses (bufWrite bytes s.rxBuf) i = true)) :
    EngineInv { s with
      phase := .idle, rxBuf := bufWrite bytes s.rxBuf, rxCount := BitVec.ofNat 4 bytes.length, crcOk := v } := by
  obtain ⟨-, -, herr, hnv, hrx, -⟩ := h.busy (.inr (.inr hp))
  have hlen : (BitVec.ofNat 4 bytes.length).toNat = bytes.length :=
    (BitVec.toNat_ofNat ..).trans (Nat.mod_eq_of_lt (hb.trans_lt s.rxLen.isLt))
  exact { h.setIdle with
    busy      := fun hq => absurd hq (not_execInProgress_idle rfl)
    rxCountLe := by rw [BitVec.le_def]; exact hlen.trans_le hb
    rxTail    := fun i hi => by
      replace hi : bytes.length ≤ i := hlen ▸ hi
      have hold : byteAt s.rxBuf i = 0#8 := h.rxTail i (by simp [hrx])
      simp [byteAt_bufWrite, List.getElem?_eq_none hi, hold]
    crcOkIff  := fun i hi => by rw [hv i hi, ← BitVec.toNat_inj, hlen]
    valid     := fun hv => by cases hnv.symm.trans hv
    checksum  := fun hc => by cases herr.symm.trans hc }

/-- The verdicts of a response received in full: a group of the command has its own, and the others are 0 (R105). -/
theorem EngineInv.crcVerdicts_bit {s : State} (h : EngineInv s) {nrx : Nat} (hlen : s.rxLen.toNat = 3 * nrx)
    (buf : Vector Byte 9) {i : Nat} (hi : i < 3) :
    (crcVerdicts buf nrx s.crcOk).getLsbD i = true ↔ 3 * i + 2 < s.rxLen.toNat ∧ groupPasses buf i = true := by
  rw [Machine.crcVerdicts_bit buf nrx _ hi, crcOkBit]
  split
  next hlt => simp [hlen, show 3 * i + 2 < 3 * nrx by omega]
  next hge =>
    rw [h.crcOkIff i hi]
    constructor
    · rintro ⟨-, hlt, -⟩; omega
    · rintro ⟨hlt, -⟩; omega

/-- A short read is a transport error: CRC_OK stays 0 (R104). -/
theorem EngineInv.shortRead {s : State} (h : EngineInv s) (hp : s.phase = .rx) {bytes : List Byte}
    (hb : (readBytesOf bytes s).length < s.rxLen.toNat) : EngineInv (Machine.completeError .transport (afterRead bytes s)) := by
  obtain ⟨-, -, -, -, hrx, -⟩ := h.busy (.inr (.inr hp))
  refine (h.receive hp hb.le fun i hi => ?_).completeError (e := .transport) nofun nofun |>.setHost ..
  rw [h.crcOkIff i hi, hrx]
  constructor
  · rintro ⟨h0, hlt, -⟩
    rw [← h0] at hlt
    simp at hlt
  · rintro ⟨hfull, -⟩
    omega

/-- A hard failure of the check (R106). -/
theorem EngineInv.failCheck {s : State} (h : EngineInv s) (hs : NoResult s) (hread : s.rxCount = s.rxLen)
    (hfail : ∃ i, 3 * i + 2 < s.rxLen.toNat ∧ groupPasses s.rxBuf i = false) : EngineInv (Machine.completeError .checksum s) :=
  { h.complete .checksum 0#64 with
    busy       := fun hq => absurd hq (not_execInProgress_idle rfl)
    functional := nofun
    checksum   := fun _ => ⟨hs.resultValid, hread, hfail, hs.res0, hs.res1, hs.res2⟩ }

theorem EngineInv.checkResponse {s : State} (h : EngineInv s) (hp : s.phase = .rx) {bytes : List Byte}
    (hb : s.rxLen.toNat ≤ (readBytesOf bytes s).length) {c : Command} (hc : s.lastCmd = c.descriptor.opcode) :
    EngineInv (checkResponse c.descriptor (afterRead bytes s)) := by
  have hbusy : execInProgress s.phase := .inr (.inr hp)
  obtain ⟨-, htx, -⟩ := h.busy hbusy
  obtain ⟨hsent, -⟩ := h.sent (.inr hp)
  have hs : NoResult (afterCheck c.descriptor.nrx (afterRead bytes s)) := { h.noResult hbusy with }
  have hlen : s.rxLen.toNat = 3 * c.descriptor.nrx := h.rxLen_toNat htx hc
  have hgot : (readBytesOf bytes s).length = s.rxLen.toNat := Nat.le_antisymm (List.length_take_le ..) hb
  have hread : (afterRead bytes s).rxCount = s.rxLen := by simp [afterRead, hgot]
  have hchecked : EngineInv { afterCheck c.descriptor.nrx (afterRead bytes s) with phase := .idle } :=
    (h.receive hp hgot.le fun i hi => (h.crcVerdicts_bit hlen (bufWrite _ s.rxBuf) hi).trans (by simp [hgot])).setHost ..
  obtain ⟨hpass, hr⟩ | ⟨⟨i, hi, hfail⟩, hr⟩ := checkResponse_cases c.nrx_le (afterRead bytes s)
  · rw [hr]
    exact hchecked.decodeResponse hc hs htx hsent hread hpass
  · rw [hr]
    exact hchecked.failCheck { hs with } hread ⟨i, by dsimp only [afterCheck, afterRead]; omega, hfail⟩

theorem EngineInv.onReadBytes {s t : State} {bytes : List Byte} (h : EngineInv s) (hp : s.phase = .rx)
    (ht : onReadBytes bytes s = .next t) : EngineInv t := by
  obtain ⟨hb, rfl⟩ | ⟨hb, c, hc, rfl⟩ := onReadBytes_cases ht
  · exact h.shortRead hp hb
  · exact h.checkResponse hp hb (Command.ofOpcode_some hc).symm

/-! ## Every step -/

theorem EngineInv.onBindAnswer {s t : State} {ok : Bool} (h : EngineInv s) (ht : onBindAnswer ok s = .next t) :
    EngineInv t := by
  obtain ⟨-, rfl⟩ | ⟨-, rfl⟩ := onBindAnswer_cases ht
  · exact (h.completeWith (e := .ok) nofun nofun true .ok 0#64).setHost ..
  · exact (h.completeError (e := .transport) nofun nofun).setHost ..

theorem EngineInv.environmentStep {s t : State} {m : EnvInput} (h : EngineInv s) (ht : environmentStep m s = .next t) :
    EngineInv t := by
  obtain rfl | ⟨w, -, -, rfl⟩ | ⟨-, rfl⟩ | ⟨ok, -, -, ht⟩ | ⟨k, -, hp, ht⟩ | ⟨-, hp, ht⟩ | ⟨bytes, -, hp, ht⟩ :=
    environmentStep_cases ht
  · exact h
  · exact h.setHost ..
  · exact engineInv_takeReset s
  · exact h.onBindAnswer ht
  · exact h.onWriteCount hp ht
  · exact h.onWaitEnd hp ht
  · exact h.onReadBytes hp ht

theorem EngineInv.exec {s t : State} {i : Instr} (h : EngineInv s) (ht : exec i s = .next t) : EngineInv t := by
  obtain ⟨c, d, rfl⟩ | ⟨-, -, rfl⟩ | ⟨-, hl, rfl⟩ | ⟨-, rfl⟩ | ⟨c, ps, hps, hl, rfl⟩ | ⟨c, ps, -, -, rfl⟩ | ⟨n, -, rfl⟩ :=
    exec_cases ht
  · exact (h.complete .ok d).setHost ..
  · exact h.completeError nofun nofun
  · exact (h.startBind hl).setHost ..
  · rw [releaseLink_eq]
    exact (h.completeWith (e := .ok) nofun nofun false .ok 0#64).setHost ..
  · exact engineInv_beginExec hl (execParts_length hps)
  · exact h.refuseExec
  · exact h.complete ..

theorem EngineInv.runDecoded {s t : State} {d : Decoded} (h : EngineInv s) (ht : runDecoded d s = .next t) : EngineInv t := by
  obtain ⟨i, -, ht⟩ | ⟨-, -, rfl⟩ | ⟨-, -, -, rfl⟩ := runDecoded_cases ht
  · exact h.exec ht
  · exact h.complete ..
  · exact h.refuseExec

/-- Settles O37: a reset meets the invariant, and an acceptance and each answer of the environment keep it. -/
theorem stepKeepsInvariant : Obligations.StepKeepsInvariant := by
  intro s t hs ht
  obtain ⟨-, hstep⟩ | ⟨-, -, w, -, hstep⟩ | ⟨-, -, hstep⟩ := step_cases s <;> rw [hstep] at ht
  · cases ht
    exact engineInv_takeReset _
  · exact (hs.setHost _ none _ _ (.accepted w :: s.trace)).runDecoded ht
  · exact hs.dropInput.environmentStep ht

/-- Settles O36: the reset state meets the invariant, and its empty trace (log 12) leads to the idle engine. -/
theorem resetMeetsInvariant : Obligations.ResetMeetsInvariant := ⟨engineInv_reset, rfl, nofun⟩

end Sys2Proof.Machine
end

section
/-!
PROOFS. Who writes which state element, what a busy engine does with a request, and the layout of the packed registers
(10_state.md R15 to R35; 42_sequencer.md R95 to R98).
-/
namespace Sys2Proof.Machine
open Sys2Proof.Claims

/-! ## An acceptance -/

/-- An acceptance is the decoded word run on the engine with its port emptied (R95). -/
theorem step_accepting {s : State} {w : ReqWord} (h : accepting s w) : step s = runDecoded (decode w) (taken s w) := by
  obtain ⟨hp, hw, hr⟩ := h
  exact step_accept hr hp hw

theorem step_accepting_instr {s : State} {w : ReqWord} {i : Instr} (h : accepting s w) (hd : decode w = .instr i) :
    step s = exec i (taken s w) := by
  rw [step_accepting h, hd]
  rfl

theorem refuseExec_taken {s : State} {w : ReqWord} (h : accepting s w) : refuseExec (taken s w) = execRefused (taken s w) :=
  complete_idle (s := { taken s w with resultValid := false, stPass := false, err := .invalid }) h.1 .invalid 0#64

/-! ## The writers of CRC, LINK and PHASE -/

/-- Settles O39: of the requests only the CRC requests write CRC, and of the inputs only reset does. -/
theorem crcRegisterWriters : Obligations.CrcRegisterWriters := by
  intro s t ht hne
  obtain ⟨-, hstep⟩ | ⟨hr, hp, w, hw, hstep⟩ | ⟨hr, -, hstep⟩ := step_cases s <;> rw [hstep] at ht
  · cases ht
    simp
  · refine .inr ⟨w, ?_⟩
    obtain ⟨i, hd, hi⟩ | ⟨why, -, rfl⟩ | ⟨cmd, np, -, rfl⟩ := runDecoded_cases ht
    · refine ⟨i, ⟨hp, hw, hr⟩, hd, ?_⟩
      by_contra hcrc
      exact hne (exec_crc (s := takeRequest w s) hcrc hi)
    · exact absurd rfl hne
    · exact absurd rfl hne
  · exact absurd ((environmentStep_crc hr ht).trans (dropInput_crc s)) hne

/-- Only LINK_CLOSE writes LINK at its acceptance (R15). -/
theorem exec_link {i : Instr} {s t : State} (h : exec i s = .next t) :
    t.link = s.link ∨ (i = .linkClose ∧ t.link = false) := by
  obtain ⟨c, d, rfl⟩ | ⟨-, -, rfl⟩ | ⟨-, -, rfl⟩ | ⟨rfl, rfl⟩ | ⟨c, ps, -, -, rfl⟩ | ⟨c, ps, -, -, rfl⟩ | ⟨n, -, rfl⟩ :=
    exec_cases h
  · exact .inl rfl
  · exact .inl rfl
  · exact .inl rfl
  · exact .inr ⟨rfl, by simp [releaseLink_eq]⟩
  · exact .inl rfl
  · exact .inl rfl
  · exact .inl rfl

/-- Settles O40: of the requests only LINK_CLOSE writes LINK, and of the inputs only reset and the bind's answer ok do. -/
theorem linkWriters : Obligations.LinkWriters := by
  intro s t ht hne
  obtain ⟨-, hstep⟩ | ⟨hr, hp, w, hw, hstep⟩ | ⟨hr, -, hstep⟩ := step_cases s <;> rw [hstep] at ht
  · cases ht
    exact .inl ⟨by simp, rfl⟩
  · refine .inr (.inr ⟨w, ⟨hp, hw, hr⟩, ?_⟩)
    obtain ⟨i, hd, hi⟩ | ⟨why, -, rfl⟩ | ⟨cmd, np, -, rfl⟩ := runDecoded_cases ht
    · obtain hl | ⟨rfl, hl⟩ := exec_link hi
      · exact absurd hl hne
      · exact ⟨hd, hl⟩
    · exact absurd rfl hne
    · exact absurd rfl hne
  · obtain hl | ⟨hp, hm, hl⟩ := environmentStep_link hr ht
    · exact absurd (hl.trans (dropInput_link s)) hne
    · exact .inr (.inl ⟨(dropInput_phase s).symm.trans hp, hm, hl⟩)

/-- The acceptances that leave IDLE (R16). -/
theorem exec_leaves_idle {i : Instr} {s t : State} (h : exec i s = .next t) (ht : t.phase ≠ .idle) :
    (i = .linkOpen ∧ s.link = false ∧ t.phase = .bind) ∨ (isExec i ∧ s.link = true ∧ t.phase = .tx) := by
  obtain ⟨c, d, rfl⟩ | ⟨-, -, rfl⟩ | ⟨rfl, hl, rfl⟩ | ⟨-, rfl⟩ | ⟨c, ps, hps, hl, rfl⟩ | ⟨c, ps, -, -, rfl⟩ | ⟨n, -, rfl⟩ :=
    exec_cases h
  · exact absurd rfl ht
  · exact absurd rfl ht
  · exact .inl ⟨rfl, hl, rfl⟩
  · exact absurd rfl ht
  · exact .inr ⟨isExec_of_execParts hps, hl, rfl⟩
  · exact absurd rfl ht
  · exact absurd rfl ht

/-- Settles O55: reset and every input of the environment leave an idle engine idle. -/
theorem idleIsLeftByRequestsOnly : Obligations.IdleIsLeftByRequestsOnly := by
  intro s t hp ht hne
  obtain ⟨-, hstep⟩ | ⟨hr, -, w, hw, hstep⟩ | ⟨-, -, hstep⟩ := step_cases s <;> rw [hstep] at ht
  · cases ht
    exact absurd rfl hne
  · obtain ⟨i, hd, hi⟩ | ⟨why, -, rfl⟩ | ⟨cmd, np, -, rfl⟩ := runDecoded_cases ht
    · exact ⟨w, i, ⟨hp, hw, hr⟩, hd, exec_leaves_idle (s := takeRequest w s) hi hne⟩
    · exact absurd rfl hne
    · exact absurd rfl hne
  · exact absurd (environmentStep_idle ((dropInput_phase s).trans hp) ht) hne

/-! ## What each request writes -/

/-- Settles O41: each request is run on the engine with its port emptied, and its meaning says what it writes. -/
theorem requestsWriteOnlyTheirElements : Obligations.RequestsWriteOnlyTheirElements := by
  intro s t w ha ht
  have run {i : Instr} {u : State} (hd : decode w = .instr i) (hu : exec i (taken s w) = .next u) : t = u := by
    cases ht.symm.trans ((step_accepting_instr ha hd).trans hu)
    rfl
  have refused {u : State} (hu : runDecoded (decode w) (taken s w) = .next u) : t = u := by
    cases ht.symm.trans ((step_accepting ha).trans hu)
    rfl
  refine ⟨fun i hd hi => ?_, fun hd hl => ?_, fun hd hl => ?_, fun hd => ?_, fun n hd => ?_, fun why hd => ?_,
    fun cmd np hd => ?_, fun i hd hi hl => ?_, fun i hd hi hl => ?_⟩
  · obtain ⟨c, d, hu⟩ := exec_crcRequest hi (taken s w)
    exact ⟨c, d, (run hd hu).trans (complete_idle (s := { taken s w with crc := c }) ha.1 .ok d)⟩
  · exact run hd (exec_linkOpen_closed hl)
  · exact (run hd (exec_linkOpen_open hl)).trans
      (complete_idle (s := { taken s w with err := .invalid }) ha.1 .invalid 0#64)
  · exact (run hd (exec_linkClose _)).trans
      (complete_idle (s := { taken s w with link := false, err := .ok, trace := _ }) ha.1 .ok 0#64)
  · obtain ⟨r, hu⟩ := exec_regRead n (taken s w)
    exact ⟨r, (run hd hu).trans (complete_idle (s := taken s w) ha.1 r.err r.data)⟩
  · exact (refused (by rw [hd]; rfl)).trans (complete_idle (s := taken s w) ha.1 .invalid 0#64)
  · exact (refused (by rw [hd]; rfl)).trans (refuseExec_taken ha)
  · obtain ⟨c, ps, hi⟩ := exec_isExec hi
    exact (run hd ((hi _).trans (startExec_closed (s := taken s w) hl c ps))).trans (refuseExec_taken ha)
  · obtain ⟨c, ps, hi⟩ := exec_isExec hi
    obtain rfl := run hd ((hi _).trans (startExec_open (s := taken s w) hl c ps))
    exact ⟨rfl, hl, rfl, rfl, rfl, rfl, rfl, _, rfl⟩

/-! ## The port -/

/-- Settles O43: with PHASE not IDLE the step takes an input of the environment, which keeps a request in the port. -/
theorem busyEngineHoldsRequest : Obligations.BusyEngineHoldsRequest := by
  intro s t w hp hw hr ht
  rw [step_environment hr (.inl hp)] at ht
  have := environmentStep_holdsRequest hr ((dropInput_port s).trans hw) ht
  rwa [dropInput_trace] at this

theorem offerRequest_empty {s : State} (hp : s.port = none) (w : ReqWord) :
    offerRequest w s = { s with port := some w, trace := .offered w :: s.trace } := by simp [offerRequest, hp]

theorem offerRequest_full {s : State} {v : ReqWord} (hp : s.port = some v) (w : ReqWord) : offerRequest w s = s := by
  simp [offerRequest, hp]

/-- An offer that no acceptance goes before is taken as the step's input. -/
theorem step_offer {s : State} {w : ReqWord} (h : s.phase ≠ .idle ∨ s.port = none) (hm : nextInput s = .offer w) :
    step s = .next (offerRequest w (dropInput s)) := by
  rw [step_environment (by simp [hm]) h, hm]
  rfl

/-- Settles O58: the offer is the step's input, and goes into the port exactly when the port is empty. -/
theorem offersFillThePort : Obligations.OffersFillThePort := by
  constructor
  · intro s w hw hm
    rw [step_offer (.inr hw) hm, offerRequest_empty ((dropInput_port s).trans hw), dropInput_trace]
  · intro s v w hp hv hm
    rw [step_offer (.inl hp) hm, offerRequest_full ((dropInput_port s).trans hv)]

/-! ## Reset values and packed registers -/

/-- Settles O46: the reset state is written out in the reset table's values (R33). -/
theorem resetStateValues : Obligations.ResetStateValues :=
  ⟨rfl, rfl, rfl, rfl, rfl, rfl, rfl, rfl, rfl, rfl, rfl, rfl, rfl, rfl, rfl, rfl, rfl, rfl, rfl⟩

/-- The fields of STATUS (R29). -/
theorem statusReg_fields (s : State) :
    (statusReg s).getLsbD 0 = s.link ∧ (statusReg s).getLsbD 1 = s.resultValid ∧ (statusReg s).getLsbD 2 = s.stPass ∧
    (statusReg s).getLsbD 3 = false ∧ (statusReg s).getLsbD 7 = false ∧ (statusReg s).extractLsb' 11 5 = 0 ∧
    (statusReg s).extractLsb' 8 3 = s.crcOk ∧ (statusReg s).extractLsb' 4 3 = errNumber s.err := by
  have bit (i : Nat) : (statusReg s).getLsbD i = _ := BitVec.getLsbD_append
  have field (i n : Nat) (hi : 1 ≤ i) : (statusReg s).extractLsb' i n = _ := extract_append_high _ _ i n hi
  refine ⟨?_, ?_, ?_, ?_, ?_, ?_, ?_, ?_⟩
  · rw [bit]; simp [flagBit]
  · simp only [bit, BitVec.getLsbD_append]; simp [flagBit]
  · simp only [bit, BitVec.getLsbD_append]; simp [flagBit]
  · simp only [bit, BitVec.getLsbD_append]; simp
  · simp only [bit, BitVec.getLsbD_append]; simp
  · rw [field 11 5 (by decide)]
    simp (disch := decide) only [extract_append_high, Nat.reduceSub, extract_whole]
    rfl
  · rw [field 8 3 (by decide)]
    simp (disch := decide) only [extract_append_high, extract_append_low, Nat.reduceSub, extract_whole]
  · rw [field 4 3 (by decide)]
    simp (disch := decide) only [extract_append_high, extract_append_low, Nat.reduceSub, extract_whole]

theorem countsReg_fields (s : State) :
    (countsReg s).extractLsb' 0 4 = s.txCount ∧ (countsReg s).extractLsb' 4 4 = s.rxCount ∧
    (countsReg s).extractLsb' 8 4 = s.txLen ∧ (countsReg s).extractLsb' 12 4 = s.rxLen := by
  refine ⟨?_, ?_, ?_, ?_⟩
  · exact (extract_append_low _ _ 0 4 (by decide)).trans (extract_whole _)
  · exact (extract_append_high _ _ 4 4 (by decide)).trans <| (extract_append_low _ _ 0 4 (by decide)).trans (extract_whole _)
  · exact (extract_append_high _ _ 8 4 (by decide)).trans <| (extract_append_high _ _ 4 4 (by decide)).trans <|
      (extract_append_low _ _ 0 4 (by decide)).trans (extract_whole _)
  · exact (extract_append_high _ _ 12 4 (by decide)).trans <| (extract_append_high _ _ 8 4 (by decide)).trans <|
      (extract_append_high _ _ 4 4 (by decide)).trans (extract_whole _)

/-- Settles O54: the fields lie in their registers where R29 and R30 say, ERR by its number. -/
theorem statusAndCountsLayout : Obligations.StatusAndCountsLayout := by
  refine ⟨rfl, rfl, fun s => ⟨?_, countsReg_fields s⟩⟩
  obtain ⟨hlink, hvalid, hpass, h3, h7, hres, hcrc, herr⟩ := statusReg_fields s
  refine ⟨hlink, hvalid, hpass, h3, h7, hres, hcrc, ?_⟩
  rw [herr]
  cases s.err <;> rfl

end Sys2Proof.Machine
end

section
/-!
PROOFS. What one step adds to the trace, and from it the order of events (20_memory.md R51, R52; 42_sequencer.md R113) and the
lawfulness of the bus traffic (20_memory.md R41, R47; 30_encoding.md R62 to R70); the events of a whole CMD_SET_BASELINE.
-/
namespace Sys2Proof.Machine
open Sys2Proof.Claims

/-! ## The frame a BusWrite sends -/

/-- Bytes that fit into a buffer are read back from its start. -/
theorem take_bufWrite {n : Nat} (bytes : List Byte) (buf : Vector Byte n) (h : bytes.length ≤ n) :
    (bufWrite bytes buf).toList.take bytes.length = bytes := by
  refine List.ext_getElem (by simpa using h) fun i hi hi' => ?_
  simp [bufWrite, List.getElem?_eq_getElem hi']

theorem requestFrame_length (cmd : Word) (payload : List Word) :
    (requestFrame cmd payload).length = 2 + 3 * payload.length := by
  simp [requestFrame, group, List.length_flatMap]
  omega

theorem txLenOf_toNat (c : Command) : (txLenOf c).toNat = 2 + 3 * c.descriptor.ntx := by cases c <;> rfl

/-- The bytes sent for a command are its request frame (R62, R99). -/
theorem txBytes_frameOf {c : Command} {ps : List Word} (h : ps.length = c.descriptor.ntx) :
    txBytes (frameOf c ps) (txLenOf c) = requestFrame c.descriptor.opcode ps := by
  have hlen : (txLenOf c).toNat = (requestFrame c.descriptor.opcode ps).length := by
    rw [txLenOf_toNat, requestFrame_length, h]
  have hfits : (requestFrame c.descriptor.opcode ps).length ≤ 8 := by
    have := c.ntx_le
    rw [requestFrame_length]
    omega
  rw [txBytes, hlen]
  exact take_bufWrite _ _ hfits

theorem lawfulEvent_write {c : Command} {ps : List Word} (h : ps.length = c.descriptor.ntx) :
    lawfulEvent (.writeIssued Config.busAddress (txBytes (frameOf c ps) (txLenOf c))) :=
  ⟨rfl, c, ps, h, txBytes_frameOf h⟩

/-- A BusRead of RX_LEN bytes has the response length of the last command (R69, R70). -/
theorem EngineInv.lawfulEvent_read {s : State} (h : EngineInv s) (hr : s.rxLen ≠ 0#4) :
    lawfulEvent (.readIssued Config.busAddress s.rxLen.toNat) := by
  have htx : s.txLen ≠ 0#4 := fun h0 => by
    obtain ⟨-, hrx, -⟩ := h.fresh h0
    exact hr hrx
  obtain ⟨c, -, hc, -⟩ := h.exchange htx
  refine ⟨rfl, c, h.rxLen_toNat htx hc, Nat.pos_of_ne_zero fun h0 => hr (BitVec.eq_of_toNat_eq h0)⟩

/-! ## New events along the order of R51 -/

/-- The point that new events (newest first) lead to from a point. -/
def pathPoint (p : Point) : List Event → Option Point
  | [] => some p
  | e :: earlier => (pathPoint p earlier).bind fun q => nextPoint q e

theorem tracePoint_eq_pathPoint (es : List Event) : tracePoint es = pathPoint .idle es := by
  induction es with
  | nil => rfl
  | cons e es ih => rw [tracePoint, pathPoint, ih]

theorem pathPoint_append {p q : Point} {old : List Event} (h : pathPoint p old = some q) (new : List Event) :
    pathPoint p (new ++ old) = pathPoint q new := by
  induction new with
  | nil => exact h
  | cons e new ih => simp only [List.cons_append, pathPoint, ih]

/-- From `s`, where its request stands at the point `p`, the trace of `t` grows by new events that lead along the order to the
phase of `t`; when `s` meets the invariant they are lawful. -/
def Extends (p : Point) (s t : State) : Prop :=
  ∃ new : List Event, t.trace = new ++ s.trace ∧ pathPoint p new = some (phasePoint t.phase) ∧
    (EngineInv s → ∀ e ∈ new, lawfulEvent e)

/-- The event puts nothing on the bus, so there is nothing to ask of it. -/
def offBus : Event → Bool
  | .bindIssued _ _ | .writeIssued _ _ | .readIssued _ _ => false
  | _ => true

theorem lawfulEvent_of_offBus {e : Event} (h : offBus e = true) : lawfulEvent e := by
  cases e with
  | bindIssued | writeIssued | readIssued => cases h
  | _ => trivial

theorem extends_offBus {p : Point} {s t : State} (new : List Event) (ht : t.trace = new ++ s.trace)
    (hp : pathPoint p new = some (phasePoint t.phase)) (hq : new.all offBus = true) : Extends p s t :=
  ⟨new, ht, hp, fun _ _ he => lawfulEvent_of_offBus (List.all_eq_true.1 hq _ he)⟩

/-- Events that put nothing on the bus may go before the new ones. -/
theorem Extends.after {p q : Point} {s u t : State} (h : Extends q u t) (old : List Event) (hu : u.trace = old ++ s.trace)
    (hp : pathPoint p old = some q) (hq : old.all offBus = true) (hinv : EngineInv s → EngineInv u) : Extends p s t := by
  obtain ⟨new, ht, hnew, hlaw⟩ := h
  refine ⟨new ++ old, by rw [ht, hu, List.append_assoc], (pathPoint_append hp new).trans hnew, fun hs e he => ?_⟩
  obtain he | he := List.mem_append.1 he
  · exact hlaw (hinv hs) e he
  · exact lawfulEvent_of_offBus (List.all_eq_true.1 hq _ he)

theorem Extends.ordered {s t : State} (h : Extends (phasePoint s.phase) s t) (hs : Ordered s) : Ordered t := by
  obtain ⟨new, ht, hp, -⟩ := h
  rw [Ordered, tracePoint_eq_pathPoint] at *
  rw [ht, pathPoint_append hs, hp]

theorem Extends.lawfulTrace {p : Point} {s t : State} (h : Extends p s t) (hs : EngineInv s) (hl : LawfulTrace s) :
    LawfulTrace t := by
  obtain ⟨new, ht, -, hnew⟩ := h
  intro e he
  rw [ht] at he
  obtain he | he := List.mem_append.1 he
  · exact hnew hs e he
  · exact hl e he

/-! ## What an acceptance adds to the trace -/

theorem exec_extends {i : Instr} {s t : State} (h : exec i s = .next t) : Extends .accepted s t := by
  obtain ⟨c, d, rfl⟩ | ⟨-, -, rfl⟩ | ⟨-, -, rfl⟩ | ⟨-, rfl⟩ | ⟨c, ps, hps, -, rfl⟩ | ⟨c, ps, -, -, rfl⟩ | ⟨n, -, rfl⟩ :=
    exec_cases h
  · exact extends_offBus [.responded ⟨.ok, d⟩] rfl rfl rfl
  · exact extends_offBus [.responded ⟨.invalid, 0⟩] rfl rfl rfl
  · exact ⟨[.bindIssued Config.busId Config.busAddress], rfl, rfl, fun _ => List.forall_mem_singleton.2 rfl⟩
  · rw [releaseLink_eq]
    cases s.link
    · exact extends_offBus [.responded ⟨.ok, 0⟩] rfl rfl rfl
    · exact extends_offBus [.responded ⟨.ok, 0⟩, .released] rfl rfl rfl
  · exact ⟨[.writeIssued _ _], rfl, rfl, fun _ => List.forall_mem_singleton.2 (lawfulEvent_write (execParts_length hps))⟩
  · exact extends_offBus [.responded ⟨.invalid, 0⟩] rfl rfl rfl
  · exact extends_offBus [.responded ⟨.invalid, 0⟩] rfl rfl rfl

theorem runDecoded_extends {d : Decoded} {s t : State} (h : runDecoded d s = .next t) : Extends .accepted s t := by
  obtain ⟨i, -, h⟩ | ⟨-, -, rfl⟩ | ⟨-, -, -, rfl⟩ := runDecoded_cases h
  · exact exec_extends h
  · exact extends_offBus [.responded ⟨.invalid, 0⟩] rfl rfl rfl
  · exact extends_offBus [.responded ⟨.invalid, 0⟩] rfl rfl rfl

/-! ## What an input of the environment adds to the trace -/

theorem onBindAnswer_extends {ok : Bool} {s t : State} (h : onBindAnswer ok s = .next t) : Extends .binding s t := by
  obtain ⟨-, rfl⟩ | ⟨-, rfl⟩ := onBindAnswer_cases h
  · exact extends_offBus [.responded ⟨.ok, 0⟩, .bindAnswered true] rfl rfl rfl
  · exact extends_offBus [.responded ⟨.transport, 0⟩, .bindAnswered false] rfl rfl rfl

theorem onWriteCount_extends {k : Nat} {s t : State} (h : onWriteCount k s = .next t) : Extends .writing s t := by
  obtain ⟨-, rfl⟩ | ⟨-, hw⟩ := onWriteCount_cases h
  · exact extends_offBus [.responded ⟨.transport, 0⟩, .writeAnswered (writeCountOf k s)] rfl rfl rfl
  · obtain ⟨c, -, rfl⟩ := startWait_cases hw
    exact extends_offBus [.waitStarted c.descriptor.delayMs, .writeAnswered (writeCountOf k s)] rfl rfl rfl

theorem onWaitEnd_extends {s t : State} (h : onWaitEnd s = .next t) : Extends .waiting s t := by
  obtain ⟨-, rfl⟩ | ⟨hr, rfl⟩ := onWaitEnd_cases h
  · exact extends_offBus [.responded ⟨s.err, 0⟩, .waitEnded] rfl rfl rfl
  · exact ⟨[.readIssued Config.busAddress s.rxLen.toNat, .waitEnded], rfl, rfl,
      fun hs => List.forall_mem_cons.2 ⟨hs.lawfulEvent_read hr, List.forall_mem_singleton.2 trivial⟩⟩

/-- The check of a response completes the request, whatever its verdict (R106, R112). -/
theorem checkResponse_completes (c : Command) (s : State) : ∃ (e : ErrCode) (d : BitVec 64) (u : State),
    checkResponse c.descriptor s = complete e d u ∧ u.trace = s.trace := by
  obtain ⟨-, hr⟩ | ⟨-, hr⟩ := checkResponse_cases c.nrx_le s
  · obtain ⟨e, d, r0, r1, r2, p, hdec⟩ := decodeResponse_writes c.descriptor.kind (afterCheck c.descriptor.nrx s)
    exact ⟨e, d, _, hr.trans hdec, rfl⟩
  · exact ⟨.checksum, 0, _, hr, rfl⟩

theorem onReadBytes_extends {bytes : List Byte} {s t : State} (h : onReadBytes bytes s = .next t) : Extends .reading s t := by
  obtain ⟨-, rfl⟩ | ⟨-, c, -, rfl⟩ := onReadBytes_cases h
  · exact extends_offBus [.responded ⟨.transport, 0⟩, .readAnswered (readBytesOf bytes s)] rfl rfl rfl
  · obtain ⟨e, d, u, hu, htrace⟩ := checkResponse_completes c (afterRead bytes s)
    rw [hu]
    exact extends_offBus [.responded ⟨e, d⟩, .readAnswered (readBytesOf bytes s)] (congrArg _ htrace) rfl rfl

theorem takeReset_extends (p : Point) (s : State) : Extends p s (takeReset s) :=
  extends_offBus [.resetTaken] rfl rfl rfl

theorem environmentStep_extends {m : EnvInput} {s t : State} (h : environmentStep m s = .next t) :
    Extends (phasePoint s.phase) s t := by
  obtain rfl | ⟨w, -, -, rfl⟩ | ⟨-, rfl⟩ | ⟨ok, -, hp, h⟩ | ⟨k, -, hp, h⟩ | ⟨-, hp, h⟩ | ⟨bytes, -, hp, h⟩ :=
    environmentStep_cases h
  · exact extends_offBus [] rfl rfl rfl
  · exact extends_offBus [.offered w] rfl rfl rfl
  · exact takeReset_extends _ s
  · exact hp ▸ onBindAnswer_extends h
  · exact hp ▸ onWriteCount_extends h
  · exact hp ▸ onWaitEnd_extends h
  · exact hp ▸ onReadBytes_extends h

/-! ## Every step -/

/-- What any step adds to the trace follows the order, and is lawful under the invariant. -/
theorem step_extends {s t : State} (h : step s = .next t) : Extends (phasePoint s.phase) s t := by
  obtain ⟨-, hstep⟩ | ⟨-, hp, w, -, hstep⟩ | ⟨-, -, hstep⟩ := step_cases s <;> rw [hstep] at h
  · cases h
    exact (takeReset_extends _ (dropInput s)).after [] (dropInput_trace s) rfl rfl EngineInv.dropInput
  · rw [hp]
    exact (runDecoded_extends h).after [.accepted w] rfl rfl rfl fun hs => hs.setHost ..
  · rw [← dropInput_phase]
    exact (environmentStep_extends h).after [] (dropInput_trace s) rfl rfl EngineInv.dropInput

/-- Settles O34: the events a step adds lead from the point of the old phase to that of the new one. -/
theorem eventsFollowOrder : Obligations.EventsFollowOrder := by
  intro s t ht
  obtain ⟨new, hnew, hpath, hlaw⟩ := step_extends ht
  exact ⟨⟨new, hnew⟩, Extends.ordered ⟨new, hnew, hpath, hlaw⟩⟩

/-- Settles O35: the events a step adds from a state that meets the invariant are lawful. -/
theorem busTrafficIsLawful : Obligations.BusTrafficIsLawful :=
  fun _ _ hs hl ht => (step_extends ht).lawfulTrace hs hl

/-! ## A whole CMD_SET_BASELINE -/

theorem nextInput_of_env {s : State} {m : EnvInput} {rest : List EnvInput} (h : s.env = m :: rest) : nextInput s = m := by
  simp [nextInput, h]

/-- The answer that the whole frame was sent starts the Wait of the current command (R101). -/
theorem step_writeCount_full {s : State} {k : Nat} {c : Command} (hp : s.phase = .tx) (hm : nextInput s = .writeCount k)
    (hc : s.lastCmd = c.descriptor.opcode) (hk : s.txLen.toNat ≤ k) :
    step s = .next { dropInput s with
      txCount := s.txLen, waitMin := c.descriptor.delayMs, phase := .wait,
      trace := .waitStarted c.descriptor.delayMs :: .writeAnswered s.txLen.toNat :: s.trace } := by
  have hcount : writeCountOf k (dropInput s) = s.txLen.toNat := by simp [writeCountOf, hk]
  have hstart : onWriteCount k (dropInput s) = startWait (afterWrite k (dropInput s)) := if_neg (by simp [hcount])
  rw [step_environment (by simp [hm]) (.inl (by simp [hp])), hm]
  simp only [environmentStep, dropInput_phase, hp, if_true, hstart]
  rw [startWait_of_lastCmd (c := c) (by simp [afterWrite, hc])]
  simp [afterWrite, hcount]

/-- The end of the Wait completes a command without a response (R102, R107, R112). -/
theorem step_waitEnd_completes {s : State} (hp : s.phase = .wait) (hm : nextInput s = .waitEnd) (hr : s.rxLen = 0#4) :
    step s = .next (completeExec 0#64 { dropInput s with trace := .waitEnded :: s.trace }) := by
  rw [step_environment (by simp [hm]) (.inl (by simp [hp])), hm]
  simp [environmentStep, onWaitEnd, hp, hr]

/-- Settles O33: the acceptance, the answer to the BusWrite and the end of the Wait are the three steps. -/
theorem setBaselineTraffic : Obligations.SetBaselineTraffic := by
  rintro s w p0 p1 bytes ⟨hp, hw, hd, hl, ⟨rest, henv⟩, -, -⟩
  have haccept : step s = .next (beginExec .setBaseline [p0, p1] (taken s w)) :=
    (step_accepting_instr ⟨hp, hw, by simp [nextInput_of_env henv]⟩ hd).trans (startExec_open (s := taken s w) hl ..)
  have hwrite := step_writeCount_full (s := beginExec .setBaseline [p0, p1] (taken s w)) rfl (nextInput_of_env henv) rfl
    (Nat.le_refl 8)
  have hframe : txBytes (frameOf .setBaseline [p0, p1]) (txLenOf .setBaseline) = [0x20, 0x1E, p0.extractLsb' 8 8,
      p0.extractLsb' 0 8, wordCrc p0, p1.extractLsb' 8 8, p1.extractLsb' 0 8, wordCrc p1] := txBytes_frameOf rfl
  refine ⟨_, (core_run_next haccept).trans ((core_run_next hwrite).trans (core_run_next
    (step_waitEnd_completes rfl (nextInput_of_env ((dropInput_env _).trans (congrArg List.tail henv))) ?_))),
    rfl, rfl, ?_, ?_, ?_, ?_⟩
  · exact dropInput_rxLen _
  · simp [completeExec]
  · simp [completeExec]
  · simp [completeExec]
  · simp [completeExec, hframe, taken, txLenOf_toNat, Command.descriptor, Config.busAddress]

end Sys2Proof.Machine
end

section
/-!
PROOFS. The decoder and the encoder are inverse to each other (30_encoding.md R55 to R57, R71): a request word is determined by
the fields of its format, so each direction is a fact about one format at a time.
-/
namespace Sys2Proof

/-! ## The fields of an encoded word -/

@[simp] theorem fieldOp_encodeH0 (op : Byte) : fieldOp (encodeH0 op) = op :=
  (extract_append_high op 0#56 56 8 (by decide)).trans (extract_whole op)

theorem reserved_encodeH0 (op : Byte) : (encodeH0 op).extractLsb' 0 56 = 0#56 :=
  (extract_append_low op 0#56 0 56 (by decide)).trans (extract_whole 0#56)

@[simp] theorem fieldOp_encodeH1 (op a b c : Byte) : fieldOp (encodeH1 op a b c) = op := (h1_fields op a b c).1

@[simp] theorem fieldA_encodeH1 (op a b c : Byte) : fieldA (encodeH1 op a b c) = a :=
  have ⟨_, _, ha, _⟩ := h1_fields op a b c
  ha

@[simp] theorem fieldB_encodeH1 (op a b c : Byte) : fieldB (encodeH1 op a b c) = b :=
  have ⟨_, _, _, hb, _⟩ := h1_fields op a b c
  hb

@[simp] theorem fieldC_encodeH1 (op a b c : Byte) : fieldC (encodeH1 op a b c) = c :=
  have ⟨_, _, _, _, hc, _⟩ := h1_fields op a b c
  hc

/-! ## A word is determined by its fields -/

theorem encodeH0_of_fields {w : ReqWord} (hr : w.extractLsb' 0 56 = 0#56) : encodeH0 (fieldOp w) = w := by
  rw [encodeH0, ← hr]
  exact append_extract (n := 8) (m := 56) w

theorem encodeH1_of_fields {w : ReqWord} (hr : w.extractLsb' 32 24 = 0#24) (h0 : w.extractLsb' 0 8 = 0#8) :
    encodeH1 (fieldOp w) (fieldA w) (fieldB w) (fieldC w) = w := by
  simp only [encodeH1, ← hr, ← h0, fieldOp, fieldA, fieldB, fieldC]
  iterate 5 rw [BitVec.extractLsb'_append_extractLsb'_eq_extractLsb' (by rfl)]
  exact extract_whole w

theorem encodeHX_of_fields {w : ReqWord} {c : Command} (hop : fieldOp w = 0x20#8) (hc : c.descriptor.opcode = fieldCmd w)
    (hr : w.extractLsb' 32 6 = 0#6) : encodeHX c (fieldNp w) (fieldP0 w) (fieldP1 w) = w := by
  simp only [encodeHX, hc, ← hr, ← hop, fieldOp, fieldCmd, fieldNp, fieldP0, fieldP1]
  iterate 5 rw [BitVec.extractLsb'_append_extractLsb'_eq_extractLsb' (by rfl)]
  exact extract_whole w

/-! ## Formats H0 and H1 -/

theorem decodeH0_eq_instr_iff {w : ReqWord} {i j : Instr} :
    decodeH0 w i = .instr j ↔ w.extractLsb' 0 56 = 0#56 ∧ i = j := by
  unfold decodeH0
  split <;> simp_all

theorem decodeH1_eq_instr_iff {w : ReqWord} {unused : Bool} {i j : Instr} : decodeH1 w unused i = .instr j ↔
    w.extractLsb' 32 24 = 0#24 ∧ w.extractLsb' 0 8 = 0#8 ∧ unused = true ∧ i = j := by
  cases unused <;> unfold decodeH1 <;> split <;> simp_all

theorem decodeH0_encodeH0 (op : Byte) (i : Instr) : decodeH0 (encodeH0 op) i = .instr i :=
  decodeH0_eq_instr_iff.2 ⟨reserved_encodeH0 op, rfl⟩

theorem decodeH1_encodeH1 (op a b c : Byte) (i : Instr) : decodeH1 (encodeH1 op a b c) true i = .instr i := by
  obtain ⟨-, hr, -, -, -, h0⟩ := h1_fields op a b c
  exact decodeH1_eq_instr_iff.2 ⟨hr, h0, rfl, rfl⟩

/-! ## Format HX -/

/-- NP is the payload count of the command, and the payload fields past it are 0 (R56, R69). -/
structure PayloadMatches (c : Command) (np : BitVec 2) (p0 p1 : Word) : Prop where
  count   : np.toNat = c.descriptor.ntx
  p0_zero : np = 0#2 → p0 = 0#16
  p1_zero : np ≠ 2#2 → p1 = 0#16

/-- The payload matches exactly when it passes the checks that the decoder makes one after the other (R96, R97). -/
theorem payloadMatches_iff {c : Command} {np : BitVec 2} {p0 p1 : Word} : PayloadMatches c np p0 p1 ↔
    np ≠ 3#2 ∧ ¬ ((np = 0#2 ∧ p0 ≠ 0#16) ∨ (np ≠ 2#2 ∧ p1 ≠ 0#16)) ∧ np.toNat = c.descriptor.ntx := by
  constructor
  · rintro ⟨hn, h0, h1⟩
    have hle : np.toNat ≤ 2 := hn ▸ c.ntx_le
    exact ⟨fun h => absurd (h ▸ hle) (by decide), by tauto, hn⟩
  · rintro ⟨-, h, hn⟩
    exact ⟨hn, by tauto, by tauto⟩

/-- The format check and the lookup in CMDTAB accept exactly the requests of a command with its payload (R96, R97). -/
theorem decodeHX_eq_instr_iff {w : ReqWord} {i : Instr} : decodeHX w = .instr i ↔
    w.extractLsb' 32 6 = 0#6 ∧ ∃ c : Command, c.descriptor.opcode = fieldCmd w ∧
      PayloadMatches c (fieldNp w) (fieldP0 w) (fieldP1 w) ∧ i = execInstr c (fieldP0 w) (fieldP1 w) := by
  constructor
  · intro h
    unfold decodeHX at h
    split_ifs at h with hr hnp hpay
    split at h
    next c hc =>
      split_ifs at h with hn
      cases h
      exact ⟨hr, c, Command.ofOpcode_some hc, payloadMatches_iff.2 ⟨hnp, hpay, hn⟩, rfl⟩
    next => cases h
  · rintro ⟨hr, c, hc, hpay, rfl⟩
    obtain ⟨hnp, hpay, hn⟩ := payloadMatches_iff.1 hpay
    have hc : Command.ofOpcode (fieldCmd w) = some c := hc ▸ Command.ofOpcode_descriptor c
    rw [decodeHX, if_pos hr, if_neg hnp, if_neg hpay, hc]
    exact if_pos hn

theorem decode_encodeHX {c : Command} {np : BitVec 2} {p0 p1 : Word} (h : PayloadMatches c np p0 p1) :
    decode (encodeHX c np p0 p1) = .instr (execInstr c p0 p1) := by
  obtain ⟨hop, hnp, hr, h0, h1, hcmd⟩ := hx_fields c np p0 p1
  have hx : decode (encodeHX c np p0 p1) = decodeHX (encodeHX c np p0 p1) := by simp [decode, hop]
  rw [hx, decodeHX_eq_instr_iff, hnp, h0, h1]
  exact ⟨hr, c, hcmd.symm, h, rfl⟩

theorem encode_execInstr {c : Command} {np : BitVec 2} {p0 p1 : Word} (h : PayloadMatches c np p0 p1) :
    encode (execInstr c p0 p1) = encodeHX c np p0 p1 := by
  obtain ⟨hn, h0, h1⟩ := h
  have hnp : np = BitVec.ofNat 2 c.descriptor.ntx := by rw [← hn, BitVec.ofNat_toNat, BitVec.setWidth_eq]
  subst hnp
  cases c <;> simp_all [encode, execInstr, Command.descriptor]

/-! ## An accepted word is the encoding of its fields -/

theorem encodeH0_of_decodeH0 {w : ReqWord} {op : Byte} {i j : Instr} (hop : fieldOp w = op) (h : decodeH0 w i = .instr j) :
    i = j ∧ encodeH0 op = w := by
  obtain ⟨hr, hij⟩ := decodeH0_eq_instr_iff.1 h
  exact ⟨hij, hop ▸ encodeH0_of_fields hr⟩

theorem encodeH1_of_decodeH1 {w : ReqWord} {op : Byte} {unused : Bool} {i j : Instr} (hop : fieldOp w = op)
    (h : decodeH1 w unused i = .instr j) :
    i = j ∧ unused = true ∧ encodeH1 op (fieldA w) (fieldB w) (fieldC w) = w := by
  obtain ⟨hr, h0, hu, hij⟩ := decodeH1_eq_instr_iff.1 h
  exact ⟨hij, hu, hop ▸ encodeH1_of_fields hr h0⟩

theorem encode_of_decodeHX {w : ReqWord} {i : Instr} (hop : fieldOp w = 0x20#8) (h : decodeHX w = .instr i) : encode i = w := by
  obtain ⟨hr, c, hc, hpay, rfl⟩ := decodeHX_eq_instr_iff.1 h
  exact (encode_execInstr hpay).trans (encodeHX_of_fields hop hc hr)

/-! ## The two round trips -/

/-- Settles O1: by the format of each request, whose fields are those it was encoded from. -/
theorem decodeEncodeRoundTrip : Obligations.DecodeEncodeRoundTrip := by
  intro i
  cases i with
  | crcInit | linkOpen | linkClose => simp [decode, encode, decodeH0_encodeH0]
  | crcUpdate | crcGen | crcVerify | regRead => simp [decode, encode, decodeH1_encodeH1]
  | cmdSetBaseline p0 p1 => exact decode_encodeHX (c := .setBaseline) ⟨rfl, nofun, fun h => absurd rfl h⟩
  | cmdSetHumidity p0 => exact decode_encodeHX (c := .setHumidity) ⟨rfl, nofun, fun _ => rfl⟩
  | cmdInit | cmdMeasureAirQuality | cmdMeasureRawSignals | cmdGetBaseline | cmdSelfTest | cmdGetFeatureSetVersion
  | cmdGetSerialId => exact decode_encodeHX ⟨rfl, fun _ => rfl, fun _ => rfl⟩

/-- Settles O2: a word that decodes has the fields of its instruction's encoding, and no others. -/
theorem encodeDecodeRoundTrip : Obligations.EncodeDecodeRoundTrip := by
  intro w i h
  unfold decode at h
  split_ifs at h with h01 h02 h03 h04 h10 h11 h20 h30
  · obtain ⟨rfl, hw⟩ := encodeH0_of_decodeH0 h01 h
    exact hw
  · obtain ⟨rfl, hu, hw⟩ := encodeH1_of_decodeH1 h02 h
    obtain ⟨hb, hc⟩ : fieldB w = 0#8 ∧ fieldC w = 0#8 := by simpa using hu
    rwa [hb, hc] at hw
  · obtain ⟨rfl, hu, hw⟩ := encodeH1_of_decodeH1 h03 h
    rwa [beq_iff_eq.1 hu] at hw
  · obtain ⟨rfl, -, hw⟩ := encodeH1_of_decodeH1 h04 h
    exact hw
  · obtain ⟨rfl, hw⟩ := encodeH0_of_decodeH0 h10 h
    exact hw
  · obtain ⟨rfl, hw⟩ := encodeH0_of_decodeH0 h11 h
    exact hw
  · exact encode_of_decodeHX h20 h
  · obtain ⟨rfl, hu, hw⟩ := encodeH1_of_decodeH1 h30 h
    obtain ⟨hb, hc⟩ : fieldB w = 0#8 ∧ fieldC w = 0#8 := by simpa using hu
    rwa [hb, hc] at hw

end Sys2Proof
end

section
/-!
PROOFS. What a response carries: an error has data 0 (30_encoding.md R58), and the Facade reads typed results from DATA (R72;
43_commands.md R129 to R133).
-/
namespace Sys2Proof.Machine
open Sys2Proof.Claims

/-! ## The data of an error response -/

/-- The error codes whose responses have no data (R58). -/
def ErrCode.noData (e : ErrCode) : Prop := e = .transport ∨ e = .checksum ∨ e = .invalid

/-- If the newest event is a response with such a code, its data is 0. -/
def ZeroDataOnError (t : State) : Prop :=
  ∀ r : Response, t.trace.head? = some (.responded r) → ErrCode.noData r.err → r.data = 0

theorem not_noData_ok : ¬ ErrCode.noData .ok := by simp [ErrCode.noData]

theorem not_noData_functional : ¬ ErrCode.noData .functional := by simp [ErrCode.noData]

theorem zeroDataOnError_complete {e : ErrCode} {d : BitVec 64} (h : ErrCode.noData e → d = 0) (s : State) :
    ZeroDataOnError (complete e d s) := by
  intro r hr
  cases hr
  exact h

theorem zeroDataOnError_completeOk (d : BitVec 64) (s : State) : ZeroDataOnError (complete .ok d s) :=
  zeroDataOnError_complete (fun h => absurd h not_noData_ok) s

theorem zeroDataOnError_completeZero (e : ErrCode) (s : State) : ZeroDataOnError (complete e 0#64 s) :=
  zeroDataOnError_complete (fun _ => rfl) s

/-- The decode of a response completes with ERR's code, OK under the invariant, or with FUNCTIONAL (R107 to R112). -/
theorem zeroDataOnError_decodeResponse (k : DecodeKind) {s : State} (h : s.err = .ok) :
    ZeroDataOnError (decodeResponse k s) := by
  cases k with
  | selfTest =>
    refine zeroDataOnError_complete (fun he => absurd he ?_) _
    by_cases hp : selfTestPasses s.rxBuf <;> simp [hp, h, not_noData_ok, not_noData_functional]
  | none | pair | single | serial48 =>
    exact zeroDataOnError_complete (fun he => absurd (h ▸ he) not_noData_ok) _

theorem zeroDataOnError_checkResponse (c : Command) {s : State} (h : s.err = .ok) :
    ZeroDataOnError (checkResponse c.descriptor s) := by
  obtain ⟨-, hr⟩ | ⟨-, hr⟩ := checkResponse_cases c.nrx_le s <;> rw [hr]
  · exact zeroDataOnError_decodeResponse _ h
  · exact zeroDataOnError_completeZero _ _

theorem exec_zeroDataOnError {i : Instr} {s t : State} (h : exec i s = .next t) : ZeroDataOnError t := by
  obtain ⟨c, d, rfl⟩ | ⟨-, -, rfl⟩ | ⟨-, -, rfl⟩ | ⟨-, rfl⟩ | ⟨c, ps, -, -, rfl⟩ | ⟨c, ps, -, -, rfl⟩ | ⟨n, -, rfl⟩ :=
    exec_cases h
  · exact zeroDataOnError_completeOk _ _
  · exact zeroDataOnError_completeZero _ _
  · exact nofun
  · exact zeroDataOnError_completeZero _ _
  · exact nofun
  · exact zeroDataOnError_completeZero _ _
  · exact zeroDataOnError_completeZero _ _

theorem runDecoded_zeroDataOnError {d : Decoded} {s t : State} (h : runDecoded d s = .next t) : ZeroDataOnError t := by
  obtain ⟨i, -, h⟩ | ⟨-, -, rfl⟩ | ⟨-, -, -, rfl⟩ := runDecoded_cases h
  · exact exec_zeroDataOnError h
  · exact zeroDataOnError_completeZero _ _
  · exact zeroDataOnError_completeZero _ _

theorem onBindAnswer_zeroDataOnError {ok : Bool} {s t : State} (h : onBindAnswer ok s = .next t) : ZeroDataOnError t := by
  obtain ⟨-, rfl⟩ | ⟨-, rfl⟩ := onBindAnswer_cases h <;> exact zeroDataOnError_completeZero _ _

theorem onWriteCount_zeroDataOnError {k : Nat} {s t : State} (h : onWriteCount k s = .next t) : ZeroDataOnError t := by
  obtain ⟨-, rfl⟩ | ⟨-, hw⟩ := onWriteCount_cases h
  · exact zeroDataOnError_completeZero _ _
  · obtain ⟨c, -, rfl⟩ := startWait_cases hw
    exact nofun

theorem onWaitEnd_zeroDataOnError {s t : State} (h : onWaitEnd s = .next t) : ZeroDataOnError t := by
  obtain ⟨-, rfl⟩ | ⟨-, rfl⟩ := onWaitEnd_cases h
  · exact zeroDataOnError_completeZero _ _
  · exact nofun

theorem onReadBytes_zeroDataOnError {bytes : List Byte} {s t : State} (herr : s.err = .ok)
    (h : onReadBytes bytes s = .next t) : ZeroDataOnError t := by
  obtain ⟨-, rfl⟩ | ⟨-, c, -, rfl⟩ := onReadBytes_cases h
  · exact zeroDataOnError_completeZero _ _
  · exact zeroDataOnError_checkResponse c (s := afterRead bytes s) herr

/-- An input of the environment leaves the engine as it was, or its newest event is no error with data. -/
theorem environmentStep_zeroDataOnError {m : EnvInput} {s t : State} (hs : EngineInv s)
    (h : environmentStep m s = .next t) : t = s ∨ ZeroDataOnError t := by
  obtain rfl | ⟨w, -, -, rfl⟩ | ⟨-, rfl⟩ | ⟨ok, -, -, h⟩ | ⟨k, -, -, h⟩ | ⟨-, -, h⟩ | ⟨bytes, -, hp, h⟩ :=
    environmentStep_cases h
  · exact .inl rfl
  · exact .inr nofun
  · exact .inr nofun
  · exact .inr (onBindAnswer_zeroDataOnError h)
  · exact .inr (onWriteCount_zeroDataOnError h)
  · exact .inr (onWaitEnd_zeroDataOnError h)
  · obtain ⟨-, -, herr, -⟩ := hs.busy (.inr (.inr hp))
    exact .inr (onReadBytes_zeroDataOnError herr h)

/-- Settles O48: only the decode of a response completes with ERR's code and data, and in RX the invariant has ERR = OK. -/
theorem errorResponsesCarryZeroData : Obligations.ErrorResponsesCarryZeroData := by
  rintro s t r ht ⟨hhead, hlonger⟩ herr hs
  suffices hz : ZeroDataOnError t from hz r hhead herr
  obtain ⟨-, hstep⟩ | ⟨-, -, w, -, hstep⟩ | ⟨-, -, hstep⟩ := step_cases s <;> rw [hstep] at ht
  · cases ht
    exact nofun
  · exact runDecoded_zeroDataOnError ht
  · obtain rfl | hz := environmentStep_zeroDataOnError hs.dropInput ht
    · exact absurd hlonger (by simp)
    · exact hz

/-! ## The Facade's requests and results -/

/-- The binary64 25.5 packs to 0x19, 0x80 (R128). -/
theorem humPack_25_5 : humPack 0x4039800000000000 = some 0x1980 := by decide

theorem facadeOutcome_ok (op : FacadeOp) (d : BitVec 64) :
    facadeOutcome op ⟨.ok, d⟩ = .value .ok (facadeValue op d) := if_pos (.inl rfl)

theorem facadeOutcome_selfTest {e : ErrCode} (h : e = .ok ∨ e = .functional) (d : BitVec 64) :
    facadeOutcome .selfTest ⟨e, d⟩ = .value e (.selfTest (d.getLsbD 0)) := if_pos (h.imp_right fun he => ⟨rfl, he⟩)

theorem facadeOutcome_error {op : FacadeOp} {r : Response} (hok : r.err ≠ .ok)
    (hf : ¬ (op = .selfTest ∧ r.err = .functional)) : facadeOutcome op r = .error r.err :=
  if_neg fun h => h.elim hok hf

theorem facadeFirst_setHumidity_some {h : BitVec 64} {w : Word} (hw : humPack h = some w) :
    facadeFirst (.setHumidity h) = some (.cmdSetHumidity w) := by
  simp [facadeFirst, hw]

theorem facadeFirst_setHumidity_none {h : BitVec 64} (hw : humPack h = none) : facadeFirst (.setHumidity h) = none := by
  simp [facadeFirst, hw]

/-- The pair of words of a two-word response (R108) is the typed value (R132). -/
theorem facadeValue_pair (x y : Word) : facadeValue .measureAirQuality (0#32 ++ x ++ y) = .pair x y := by
  have hx : (0#32 ++ x ++ y).extractLsb' 16 16 = x :=
    (extract_append_high (0#32 ++ x) y 16 16 (by decide)).trans <|
      (extract_append_low 0#32 x 0 16 (by decide)).trans (extract_whole x)
  have hy : (0#32 ++ x ++ y).extractLsb' 0 16 = y :=
    (extract_append_low (0#32 ++ x) y 0 16 (by decide)).trans (extract_whole y)
  exact congrArg₂ FacadeValue.pair hx hy

theorem baselineWords_order : (∀ e v : Word, baselineWords e v = (e, v)) ∨ (∀ e v : Word, baselineWords e v = (v, e)) := by
  unfold baselineWords
  cases Config.eco2BaselineFirst
  · exact .inr fun _ _ => rfl
  · exact .inl fun _ _ => rfl

/-- Settles O57: each request is read off the expansion, and each result off the outcome of a response that is OK, of a
self-test, or of an error. -/
theorem facadeExpandsToRequests : Obligations.FacadeExpandsToRequests := by
  refine ⟨⟨rfl, rfl, rfl, rfl, rfl, fun _ _ => rfl, fun _ _ => facadeFirst_setHumidity_some,
    fun _ => facadeFirst_setHumidity_none, facadeFirst_setHumidity_some humPack_25_5, rfl, rfl, rfl⟩,
    fun r => ?_, fun op r hop => if_neg fun h => hop h.1, fun _ _ => facadeOutcome_error,
    fun d => ⟨fun op hop => ?_, facadeOutcome_ok _ d, facadeOutcome_ok _ d, fun _ he => facadeOutcome_selfTest he d,
      facadeOutcome_ok _ d, facadeOutcome_ok _ d, fun _ _ => facadeOutcome_ok _ d, fun _ => facadeOutcome_ok _ d⟩,
    fun x y => (facadeOutcome_ok _ _).trans (congrArg _ (facadeValue_pair x y)), baselineWords_order⟩
  · simp [facadeSecond]
  · rw [facadeOutcome_ok]
    obtain rfl | rfl | rfl : op = .measureAirQuality ∨ op = .measureRawSignals ∨ op = .getBaseline := by simpa using hop
    all_goals rfl

end Sys2Proof.Machine
end

section
/-!
PROOFS. The CRC engine (40_crc_engine.md R74 to R83). R74's step is linear over XOR and loses nothing, so crc8 is affine, and
a valid 3-byte group with an error pattern passes its check exactly when the pattern's syndrome is 0. The syndrome of bit `i`
alone is `i` steps from 1: it has odd parity, and no two bits of a group share it.
-/
namespace Sys2Proof.Machine
open Sys2Proof.Claims

/-! ## One step of the loop -/

/-- What a step XORs into the shifted byte, from the bit it tested. -/
def crcFeedback (top : Bool) : Byte := if top then Config.crcPoly else 0

theorem crcShift_eq (c : Byte) : crcShift c = c <<< 1 ^^^ crcFeedback c.msb := by
  rw [crcShift, crcFeedback]
  split
  · rfl
  · exact BitVec.xor_zero.symm

theorem crcFeedback_xor (p q : Bool) : crcFeedback (p ^^ q) = crcFeedback p ^^^ crcFeedback q := by
  revert p q
  decide

/-- R74's step is linear over XOR (R83). -/
theorem crcShift_xor (a b : Byte) : crcShift (a ^^^ b) = crcShift a ^^^ crcShift b := by
  simp only [crcShift_eq, BitVec.shiftLeft_xor_distrib, BitVec.msb_xor, crcFeedback_xor]
  ac_rfl

/-- The low bit of a step's result is the bit that was shifted out: 0x31 is odd. -/
theorem crcShift_lowBit (c : Byte) : (crcShift c).getLsbD 0 = c.msb := by
  have hlow : ∀ top, (crcFeedback top)[0] = top := by decide
  simp [crcShift_eq, hlow]

theorem crcShift_eq_zero {c : Byte} (h : crcShift c = 0) : c = 0 := by
  have hmsb : c.msb = false := by rw [← crcShift_lowBit, h]; rfl
  rw [crcShift_eq, hmsb, show crcFeedback false = 0#8 from rfl, BitVec.xor_zero] at h
  rw [BitVec.msb_eq_false_iff_two_mul_lt] at hmsb
  bv_omega

theorem crcShift_toNat (c : Byte) : (crcShift c).toNat = crcLoopStep c.toNat := by
  have htop : c.toNat.testBit 7 = c.msb := by rw [BitVec.testBit_toNat, BitVec.msb_eq_getLsbD_last]
  have hshift : (c <<< 1).toNat = 2 * c.toNat % 256 := by
    rw [BitVec.toNat_shiftLeft, Nat.shiftLeft_eq, Nat.mul_comm]
  rw [crcLoopStep, htop]
  cases h : c.msb
  · simpa [crcShift, h] using hshift
  · simp [crcShift, h, hshift, Config.crcPoly]

/-! ## Any number of steps -/

theorem crcShifts_add (m n : Nat) (c : Byte) : crcShifts (m + n) c = crcShifts n (crcShifts m c) := by
  induction m generalizing c with
  | zero => rw [Nat.zero_add]; rfl
  | succ m ih => rw [Nat.succ_add]; exact ih (crcShift c)

theorem crcShifts_xor (n : Nat) (a b : Byte) : crcShifts n (a ^^^ b) = crcShifts n a ^^^ crcShifts n b := by
  induction n generalizing a b with
  | zero => rfl
  | succ n ih => simp only [crcShifts, crcShift_xor, ih]

theorem crcShifts_zero (n : Nat) : crcShifts n 0 = 0 := by
  induction n with
  | zero => rfl
  | succ n ih => exact ih

theorem crcShifts_eq_zero {n : Nat} {c : Byte} : crcShifts n c = 0 ↔ c = 0 := by
  refine ⟨fun h => ?_, fun h => h ▸ crcShifts_zero n⟩
  induction n generalizing c with
  | zero => exact h
  | succ n ih => exact crcShift_eq_zero (ih h)

theorem crcShifts_inj {n : Nat} {a b : Byte} : crcShifts n a = crcShifts n b ↔ a = b :=
  calc crcShifts n a = crcShifts n b
    _ ↔ crcShifts n a ^^^ crcShifts n b = 0 := BitVec.xor_eq_zero_iff.symm
    _ ↔ crcShifts n (a ^^^ b) = 0 := by rw [crcShifts_xor]
    _ ↔ a ^^^ b = 0 := crcShifts_eq_zero
    _ ↔ a = b := BitVec.xor_eq_zero_iff

theorem crcShifts_toNat (n : Nat) (c : Byte) : (crcShifts n c).toNat = crcLoopStep^[n] c.toNat := by
  induction n generalizing c with
  | zero => rfl
  | succ n ih => rw [Function.iterate_succ_apply, ← crcShift_toNat]; exact ih (crcShift c)

/-- Settles O13: each of the eight steps is the step in plain numbers. -/
theorem crcUpdateIsEightShifts : Obligations.CrcUpdateIsEightShifts :=
  fun c b => crcShifts_toNat 8 (c ^^^ b)

/-! ## crc8 of two and of three bytes -/

theorem crc8_triple (hi lo e : Byte) : crc8 [hi, lo, e] = crcShifts 8 (crc8 [hi, lo] ^^^ e) := rfl

theorem crc8_zeros : crc8 [0, 0] = 0x81 := by decide +kernel

/-- Settles O15: the eight steps take only 0 to 0. -/
theorem crcZeroResidue : Obligations.CrcZeroResidue := by
  intro hi lo e
  rw [crc8_triple]
  calc crcShifts 8 (crc8 [hi, lo] ^^^ e) = 0
    _ ↔ crc8 [hi, lo] ^^^ e = 0 := crcShifts_eq_zero
    _ ↔ crc8 [hi, lo] = e := BitVec.xor_eq_zero_iff
    _ ↔ e = crc8 [hi, lo] := eq_comm

/-- The linear part of crc8 on two bytes: what an error in them changes in it. -/
def crcDiff (hi lo : Byte) : Byte := crcShifts 8 (crcShifts 8 hi ^^^ lo)

theorem crcDiff_xor (hi lo hi' lo' : Byte) : crcDiff (hi ^^^ hi') (lo ^^^ lo') = crcDiff hi lo ^^^ crcDiff hi' lo' := by
  simp only [crcDiff, crcShifts_xor]
  ac_rfl

theorem crc8_pair (hi lo : Byte) : crc8 [hi, lo] = crcDiff (Config.crcInitial ^^^ hi) lo := rfl

theorem crc8_xor (hi lo hi' lo' : Byte) : crc8 [hi ^^^ hi', lo ^^^ lo'] = crc8 [hi, lo] ^^^ crcDiff hi' lo' := by
  rw [crc8_pair, crc8_pair, ← crcDiff_xor, BitVec.xor_assoc]

theorem crcDiff_eq (hi lo : Byte) : crcDiff hi lo = crc8 [hi, lo] ^^^ 0x81 := by
  have h : crc8 [hi, lo] = 0x81 ^^^ crcDiff hi lo := by
    rw [← crc8_zeros, ← crc8_xor]
    simp only [BitVec.ofNat_eq_ofNat, BitVec.zero_xor]
  rw [h, BitVec.xor_comm, ← BitVec.xor_assoc, BitVec.xor_self, BitVec.zero_xor]

theorem wordCrc_xor (x y : Word) :
    wordCrc (x ^^^ y) = wordCrc x ^^^ crcDiff (y.extractLsb' 8 8) (y.extractLsb' 0 8) := by
  simp only [wordCrc, BitVec.extractLsb'_xor, crc8_xor]

/-- Settles O16: crc8 is its linear part, moved by its value on two zero bytes. -/
theorem crcIsAffine : Obligations.CrcIsAffine := by
  refine ⟨crc8_zeros, fun x y => ?_⟩
  rw [wordCrc_xor, crcDiff_eq, ← BitVec.xor_assoc]
  rfl

/-! ## The syndrome of an error pattern -/

/-- What an error pattern of a 3-byte group adds to the compare of its check. -/
def groupSyndrome (e : BitVec 24) : Byte :=
  crcDiff (e.extractLsb' 16 8) (e.extractLsb' 8 8) ^^^ e.extractLsb' 0 8

theorem groupSyndrome_xor (x y : BitVec 24) : groupSyndrome (x ^^^ y) = groupSyndrome x ^^^ groupSyndrome y := by
  simp only [groupSyndrome, BitVec.extractLsb'_xor, crcDiff_xor]
  ac_rfl

/-- An error in a valid group goes undetected exactly when its syndrome is 0. -/
theorem groupValid_xor_iff {g e : BitVec 24} (hg : groupValid g) : groupValid (g ^^^ e) ↔ groupSyndrome e = 0 := by
  simp only [groupValid, groupSyndrome, BitVec.extractLsb'_xor, crc8_xor] at hg ⊢
  rw [hg, BitVec.xor_right_inj]
  exact BitVec.xor_eq_zero_iff.symm

/-- The syndrome of bit `i` alone: x^i modulo the CRC polynomial. -/
theorem groupSyndrome_bit : ∀ i < 24, groupSyndrome (1#24 <<< i) = crcShifts i 1 := by decide +kernel

theorem crcDiff_bit : ∀ i < 16, crcDiff ((1#16 <<< i).extractLsb' 8 8) ((1#16 <<< i).extractLsb' 0 8) =
    crcShifts (i + 8) 1 := by decide +kernel

/-- The steps from 1 do not come back to 1 within a group's length. -/
theorem crcShifts_one_ne_one : ∀ k < 24, 0 < k → crcShifts k 1 ≠ 1 := by decide +kernel

theorem crcShifts_one_ne {i j : Nat} (hij : i < j) (hj : j < 24) : crcShifts i 1 ≠ crcShifts j 1 := by
  intro h
  rw [show j = (j - i) + i by omega, crcShifts_add, crcShifts_inj] at h
  exact crcShifts_one_ne_one (j - i) (by omega) (by omega) h.symm

/-! ## Parity: the CRC polynomial has an even number of terms -/

/-- The byte has an odd number of 1 bits at the indices of a list. -/
def oddAt (c : Byte) : List Nat → Bool
  | [] => false
  | i :: is => c.getLsbD i ^^ oddAt c is

/-- The byte has an odd number of 1 bits. -/
def oddParity (c : Byte) : Bool := oddAt c [0, 1, 2, 3, 4, 5, 6, 7]

theorem oddAt_xor (a b : Byte) (is : List Nat) : oddAt (a ^^^ b) is = (oddAt a is ^^ oddAt b is) := by
  induction is with
  | nil => rfl
  | cons i is ih => simp only [oddAt, ih, BitVec.getLsbD_xor, Bool.xor_assoc, Bool.xor_left_comm]

theorem oddParity_xor (a b : Byte) : oddParity (a ^^^ b) = (oddParity a ^^ oddParity b) := oddAt_xor a b _

theorem oddParity_shiftLeft (c : Byte) : oddParity (c <<< 1) = (oddParity c ^^ c.msb) := by
  simp [oddParity, oddAt, BitVec.msb_eq_getLsbD_last]

/-- The step drops a 1 from the top exactly when it adds 0x31, which has three. -/
theorem oddParity_crcShift (c : Byte) : oddParity (crcShift c) = oddParity c := by
  have hodd : ∀ top, oddParity (crcFeedback top) = top := by decide
  rw [crcShift_eq, oddParity_xor, oddParity_shiftLeft, hodd, Bool.xor_assoc, Bool.xor_self, Bool.xor_false]

theorem oddParity_crcShifts (n : Nat) (c : Byte) : oddParity (crcShifts n c) = oddParity c := by
  induction n generalizing c with
  | zero => rfl
  | succ n ih => exact (ih (crcShift c)).trans (oddParity_crcShift c)

/-! ## The bits of an error pattern -/

/-- The pattern with the bits of a list. -/
def patternOf (bits : List Nat) : BitVec 24 := bits.foldr (fun i e => 1#24 <<< i ^^^ e) 0

/-- The bits of a pattern that are 1, which its weight counts. -/
def bitsOf (e : BitVec 24) : List Nat := (List.range 24).filter fun i => e.getLsbD i

theorem weight_eq (e : BitVec 24) : weight e = (bitsOf e).length := rfl

theorem bitsOf_nodup (e : BitVec 24) : (bitsOf e).Nodup := List.nodup_range.filter _

theorem mem_bitsOf {e : BitVec 24} {i : Nat} : i ∈ bitsOf e ↔ i < 24 ∧ e.getLsbD i = true := by
  rw [bitsOf, List.mem_filter, List.mem_range]

theorem bitsOf_lt {e : BitVec 24} {i : Nat} (h : i ∈ bitsOf e) : i < 24 := (mem_bitsOf.1 h).1

theorem patternOf_bit {bits : List Nat} (hb : bits.Nodup) {k : Nat} (hk : k < 24) :
    (patternOf bits).getLsbD k = decide (k ∈ bits) := by
  induction bits with
  | nil => simp [patternOf]
  | cons i bits ih =>
    obtain ⟨hi, hb⟩ := List.nodup_cons.1 hb
    rw [patternOf, List.foldr_cons, ← patternOf, BitVec.getLsbD_xor, ih hb, ← BitVec.twoPow_eq, BitVec.getLsbD_twoPow]
    by_cases hki : k = i
    · subst hki
      simp [hi, hk]
    · simp [hki, Ne.symm hki]

theorem patternOf_bitsOf (e : BitVec 24) : patternOf (bitsOf e) = e := by
  refine BitVec.eq_of_getLsbD_eq fun k hk => ?_
  rw [patternOf_bit (bitsOf_nodup e) hk]
  simp [mem_bitsOf, hk]

/-- The parity of the syndrome is that of the number of flipped bits. -/
theorem oddParity_groupSyndrome {bits : List Nat} (h : ∀ i ∈ bits, i < 24) :
    oddParity (groupSyndrome (patternOf bits)) = decide (bits.length % 2 = 1) := by
  induction bits with
  | nil => decide +kernel
  | cons i bits ih =>
    obtain ⟨hi, hbits⟩ := List.forall_mem_cons.1 h
    have hone : oddParity (groupSyndrome (1#24 <<< i)) = true := by
      rw [groupSyndrome_bit i hi, oddParity_crcShifts]; decide
    rw [patternOf, List.foldr_cons, ← patternOf, groupSyndrome_xor, oddParity_xor, ih hbits, hone, List.length_cons,
      Bool.true_xor, ← decide_not, decide_eq_decide]
    omega

theorem groupSyndrome_ne_zero_of_odd {e : BitVec 24} (h : weight e % 2 = 1) : groupSyndrome e ≠ 0 := by
  intro h0
  have hpar := oddParity_groupSyndrome fun i (hi : i ∈ bitsOf e) => bitsOf_lt hi
  rw [patternOf_bitsOf, h0, ← weight_eq] at hpar
  exact absurd h (of_decide_eq_false hpar.symm)

theorem groupSyndrome_ne_zero_of_two {e : BitVec 24} (h : weight e = 2) : groupSyndrome e ≠ 0 := by
  obtain ⟨i, j, hij⟩ := List.length_eq_two.1 ((weight_eq e).symm.trans h)
  have hi : i < 24 := bitsOf_lt (e := e) (by simp [hij])
  have hj : j < 24 := bitsOf_lt (e := e) (by simp [hij])
  have hne : i ≠ j := by simpa [hij] using bitsOf_nodup e
  have he : e = 1#24 <<< i ^^^ 1#24 <<< j := by rw [← patternOf_bitsOf e, hij]; simp [patternOf]
  rw [he, groupSyndrome_xor, groupSyndrome_bit i hi, groupSyndrome_bit j hj]
  refine mt BitVec.xor_eq_zero_iff.1 ?_
  obtain hlt | hgt := Nat.lt_or_gt_of_ne hne
  · exact crcShifts_one_ne hlt hj
  · exact (crcShifts_one_ne hgt hi).symm

theorem groupSyndrome_ne_zero {e : BitVec 24} (h1 : 1 ≤ weight e) (h3 : weight e ≤ 3) : groupSyndrome e ≠ 0 := by
  obtain hodd | htwo : weight e % 2 = 1 ∨ weight e = 2 := by omega
  · exact groupSyndrome_ne_zero_of_odd hodd
  · exact groupSyndrome_ne_zero_of_two htwo

theorem wordCrc_flip_ne (w : Word) {i : Nat} (hi : i < 16) : wordCrc (w ^^^ (1#16 <<< i)) ≠ wordCrc w := by
  rw [wordCrc_xor, crcDiff_bit i hi]
  intro h
  have h0 : crcShifts (i + 8) 1 = 0 := by simpa using h
  exact absurd (crcShifts_eq_zero.1 h0) (by decide)

/-- Settles O14: no pattern of 1 to 3 bits has syndrome 0; the CRC polynomial itself (0x131), a pattern of 4 bits, has. -/
theorem crcDetectsThreeBitErrors : Obligations.CrcDetectsThreeBitErrors := by
  refine ⟨fun g e hg h1 h3 hv => groupSyndrome_ne_zero h1 h3 ((groupValid_xor_iff hg).1 hv),
    fun w i hi => wordCrc_flip_ne w hi, 0x000081, 0x000131, ?_⟩
  have hg : groupValid 0x000081 := crc8_zeros
  exact ⟨hg, by decide +kernel, (groupValid_xor_iff hg).2 (by decide +kernel)⟩

/-! ## The four requests -/

theorem storeCrc_eq (c : Byte) (d : BitVec 64) (s : State) : storeCrc c d s =
    .next { s with phase := .idle, crc := c, trace := .responded ⟨.ok, d⟩ :: s.trace } := rfl

theorem storeCrc_idle {s : State} (hp : s.phase = .idle) (c : Byte) (d : BitVec 64) : storeCrc c d s =
    .next { s with crc := c, trace := .responded ⟨.ok, d⟩ :: s.trace } :=
  congrArg _ (complete_idle (s := { s with crc := c }) hp .ok d)

theorem exec_crcInit (s : State) : exec .crcInit s = storeCrc 0xFF 0xFF s := rfl

theorem exec_crcUpdate (a : Byte) (s : State) :
    exec (.crcUpdate a) s = storeCrc (crcUpdate s.crc a) ((crcUpdate s.crc a).zeroExtend 64) s := rfl

theorem exec_crcGen (hi lo : Byte) (s : State) :
    exec (.crcGen hi lo) s = storeCrc (crc8 [hi, lo]) ((crc8 [hi, lo]).zeroExtend 64) s := rfl

theorem flagBit_beq_zeroExtend (x y : Byte) : (flagBit (x == y)).zeroExtend 64 = if x = y then 1 else 0 := by
  by_cases h : x = y
  · simp [h, flagBit]
  · simp [h, beq_false_of_ne h, flagBit]

theorem exec_crcVerify (hi lo e : Byte) (s : State) :
    exec (.crcVerify hi lo e) s = storeCrc (crc8 [hi, lo]) (if crc8 [hi, lo] = e then 1 else 0) s :=
  congrArg (storeCrc (crc8 [hi, lo]) · s) (flagBit_beq_zeroExtend _ e)

/-- Settles O8: CRC_INIT stores 0xFF on an idle engine. -/
theorem crcInitRestartsCrc : Obligations.CrcInitRestartsCrc :=
  ⟨by decide, fun s hp => (exec_crcInit s).trans (storeCrc_idle hp ..)⟩

/-- Settles O9: CRC_UPDATE stores the update of the old CRC on an idle engine. -/
theorem crcUpdateFoldsByte : Obligations.CrcUpdateFoldsByte :=
  fun a => ⟨rfl, fun s hp => (exec_crcUpdate a s).trans (storeCrc_idle hp ..)⟩

/-- Settles O10: CRC_GENERATE stores crc8 of its bytes on an idle engine; the three requests it stands for store the same. -/
theorem crcGenerateReplacesCrc : Obligations.CrcGenerateReplacesCrc :=
  fun hi lo => ⟨rfl, fun s hp => ⟨(exec_crcGen hi lo s).trans (storeCrc_idle hp ..),
    _, _, _, exec_crcInit s, exec_crcUpdate hi _, exec_crcUpdate lo _, rfl⟩⟩

/-- Settles O11: CRC_VERIFY stores crc8 of its bytes on an idle engine and answers the compare. -/
theorem crcVerifyReportsMatch : Obligations.CrcVerifyReportsMatch := by
  refine ⟨fun _ _ _ => rfl, fun s hi lo e hp => (exec_crcVerify hi lo e s).trans (storeCrc_idle hp ..),
    fun s hi lo hp => ⟨_, (exec_crcVerify hi lo _ s).trans (storeCrc_idle hp ..), ?_⟩⟩
  rw [if_pos rfl]
  rfl

/-- Settles O12: what each request stores comes from its bytes and the CRC register alone. -/
theorem crcRequestsTouchOnlyCrc : Obligations.CrcRequestsTouchOnlyCrc := by
  intro i s hi
  suffices h : ∃ c d, ∀ b p, exec i { s with link := b, phase := p } = storeCrc c d { s with link := b, phase := p } by
    simpa only [storeCrc_eq] using h
  obtain rfl | ⟨a, rfl⟩ | ⟨hi, lo, rfl⟩ | ⟨hi, lo, e, rfl⟩ := hi
  · exact ⟨_, _, fun _ _ => exec_crcInit _⟩
  · exact ⟨crcUpdate s.crc a, (crcUpdate s.crc a).zeroExtend 64, fun _ _ => exec_crcUpdate a _⟩
  · exact ⟨_, _, fun _ _ => exec_crcGen hi lo _⟩
  · exact ⟨_, _, fun _ _ => exec_crcVerify hi lo e _⟩

end Sys2Proof.Machine
end

section
/-!
PROOFS. The link requests and the bus operation in progress (41_link.md R85, R86, R91): what an input does to a busy engine, and
which inputs end each phase.
-/
namespace Sys2Proof.Machine

/-! ## The input of a busy engine -/

theorem dropInput_of_env {s : State} {m : EnvInput} {rest : List EnvInput} (h : s.env = m :: rest) :
    dropInput s = { s with env := rest } := by
  simp [dropInput, h]

/-- A silent input is used up and changes nothing else. -/
theorem step_silent {s : State} (hp : s.phase ≠ .idle) (hm : nextInput s = .silent) : step s = .next (dropInput s) := by
  rw [step_environment (by simp [hm]) (.inl hp), hm]
  rfl

theorem step_bindAnswer {s : State} {ok : Bool} (hp : s.phase = .bind) (hm : nextInput s = .bindAnswer ok) :
    step s = onBindAnswer ok (dropInput s) := by
  rw [step_environment (by simp [hm]) (.inl (by simp [hp])), hm]
  exact if_pos ((dropInput_phase s).trans hp)

/-- A phase is left by reset or by the input it waits for (R16, R91). -/
theorem environmentStep_leaves_phase {m : EnvInput} {s t : State} (h : environmentStep m s = .next t)
    (hne : t.phase ≠ s.phase) :
    m = .reset ∨ (s.phase = .bind ∧ ∃ ok, m = .bindAnswer ok) ∨ (s.phase = .tx ∧ ∃ k, m = .writeCount k) ∨
    (s.phase = .wait ∧ m = .waitEnd) ∨ (s.phase = .rx ∧ ∃ bytes, m = .readBytes bytes) := by
  obtain rfl | ⟨w, -, -, rfl⟩ | ⟨rfl, -⟩ | ⟨ok, rfl, hp, -⟩ | ⟨k, rfl, hp, -⟩ | ⟨rfl, hp, -⟩ | ⟨bytes, rfl, hp, -⟩ :=
    environmentStep_cases h
  · exact absurd rfl hne
  · exact absurd rfl hne
  · exact .inl rfl
  · exact .inr (.inl ⟨hp, ok, rfl⟩)
  · exact .inr (.inr (.inl ⟨hp, k, rfl⟩))
  · exact .inr (.inr (.inr (.inl ⟨hp, rfl⟩)))
  · exact .inr (.inr (.inr (.inr ⟨hp, bytes, rfl⟩)))

/-- The bus hang (R91): silent inputs are used up one a step, and nothing else changes. -/
theorem core_run_silent (n : Nat) (s : State) (rest : List EnvInput) (hp : s.phase ≠ .idle)
    (henv : s.env = List.replicate n .silent ++ rest) : Sys2Proof.core.run n s = .next { s with env := rest } := by
  induction n generalizing s with
  | zero =>
    obtain rfl : s.env = rest := henv
    exact core_run_zero s
  | succ n ih =>
    have hstep : step s = .next { s with env := List.replicate n .silent ++ rest } := by
      rw [step_silent hp (nextInput_of_env henv), dropInput_of_env henv]
      rfl
    exact (core_run_next hstep).trans (ih _ hp rfl)

/-- Settles O44: by induction on the number of silent inputs, and by the inputs that end each phase. -/
theorem silentBusHangs : Obligations.SilentBusHangs := by
  refine ⟨core_run_silent, fun s t hbus ht hne => ?_⟩
  obtain ⟨hm, -⟩ | ⟨-, hidle, -⟩ | ⟨-, -, hstep⟩ := step_cases s
  · exact .inl hm
  · simp [hidle] at hbus
  · have hleft := environmentStep_leaves_phase (hstep.symm.trans ht) (by rwa [dropInput_phase])
    rw [dropInput_phase] at hleft
    obtain hm | hbind | htx | ⟨hwait, -⟩ | hrx := hleft
    · exact .inl hm
    · exact .inr (.inl hbind)
    · exact .inr (.inr (.inl htx))
    · simp [hwait] at hbus
    · exact .inr (.inr (.inr hrx))

/-! ## The link requests -/

/-- Settles O17: the two acceptances, and the two answers and the silent input in BIND. -/
theorem linkOpenBindsClosedLink : Obligations.LinkOpenBindsClosedLink := by
  refine ⟨rfl, fun s hl => exec_linkOpen_closed hl, fun s hl hp => ?_, fun s hp hm => ?_, fun s hp hm => ?_,
    fun s hp hm => step_silent (by simp [hp]) hm⟩
  · exact (exec_linkOpen_open hl).trans (congrArg _ (complete_idle (s := { s with err := .invalid }) hp .invalid 0#64))
  · rw [step_bindAnswer hp hm, ← dropInput_trace s]
    rfl
  · rw [step_bindAnswer hp hm, ← dropInput_trace s]
    rfl

theorem exec_linkClose_idle {s : State} (hp : s.phase = .idle) : exec .linkClose s = .next { s with
    link := false, err := .ok, trace := .responded ⟨.ok, 0⟩ :: ((if s.link then [.released] else []) ++ s.trace) } :=
  (exec_linkClose s).trans (congrArg _ (complete_idle (s := { s with link := false, err := .ok, trace := _ }) hp .ok 0#64))

/-- Settles O18: the release records its event on an open link only, and the completion of an idle engine its response. -/
theorem linkCloseReleases : Obligations.LinkCloseReleases := by
  refine ⟨rfl, fun s hl hp => ?_, fun s hl hp => ?_⟩
  · simp [exec_linkClose_idle hp, hl]
  · simp [exec_linkClose_idle hp, hl]

end Sys2Proof.Machine
end

section
/-!
PROOFS. The format check and the validation of an EXEC (42_sequencer.md R95 to R98): the masks of R96 ask of each format what
the decoder asks of its fields, and the lookup in CMDTAB is that in the table of R118.
-/
namespace Sys2Proof

/-! ## The masks of the format check, field by field -/

theorem h0_mask (w : ReqWord) : w &&& 0x00FFFFFFFFFFFFFF#64 = 0#64 ↔ w.extractLsb' 0 56 = 0#56 :=
  and_fieldMask_eq_zero_iff w (start := 0) (len := 56) (by decide)

theorem h1_mask (w : ReqWord) :
    w &&& 0x00FFFFFF000000FF#64 = 0#64 ↔ w.extractLsb' 32 24 = 0#24 ∧ w.extractLsb' 0 8 = 0#8 := by
  rw [show 0x00FFFFFF000000FF#64 = fieldMask 32 24 ||| fieldMask 0 8 by decide, and_or_eq_zero_iff,
    and_fieldMask_eq_zero_iff w (by decide), and_fieldMask_eq_zero_iff w (by decide)]

theorem hx_mask (w : ReqWord) : w &&& 0x0000003F00000000#64 = 0#64 ↔ w.extractLsb' 32 6 = 0#6 :=
  and_fieldMask_eq_zero_iff w (start := 32) (len := 6) (by decide)

theorem bc_mask (w : ReqWord) : w &&& 0x0000000000FFFF00#64 = 0#64 ↔ fieldB w = 0#8 ∧ fieldC w = 0#8 := by
  rw [show 0x0000000000FFFF00#64 = fieldMask 16 8 ||| fieldMask 8 8 by decide, and_or_eq_zero_iff,
    and_fieldMask_eq_zero_iff w (by decide), and_fieldMask_eq_zero_iff w (by decide), fieldB, fieldC]

theorem c_mask (w : ReqWord) : w &&& 0x000000000000FF00#64 = 0#64 ↔ fieldC w = 0#8 :=
  and_fieldMask_eq_zero_iff w (start := 8) (len := 8) (by decide)

theorem p0_mask (w : ReqWord) : w &&& 0x00000000FFFF0000#64 = 0#64 ↔ fieldP0 w = 0#16 :=
  and_fieldMask_eq_zero_iff w (start := 16) (len := 16) (by decide)

theorem p1_mask (w : ReqWord) : w &&& 0x000000000000FFFF#64 = 0#64 ↔ fieldP1 w = 0#16 :=
  and_fieldMask_eq_zero_iff w (start := 0) (len := 16) (by decide)

/-! ## Well-formed words of each format -/

/-- The five checks of R96 on a word of a given selector. -/
theorem wellFormed_iff {w : ReqWord} {op : Byte} (hop : fieldOp w = op) : w.wellFormed = true ↔
    [0x01, 0x02, 0x03, 0x04, 0x10, 0x11, 0x20, 0x30].contains op.toNat = true ∧
    (if [0x01, 0x10, 0x11].contains op.toNat then w.extractLsb' 0 56 = 0#56
      else if [0x02, 0x03, 0x04, 0x30].contains op.toNat then w.extractLsb' 32 24 = 0#24 ∧ w.extractLsb' 0 8 = 0#8
      else w.extractLsb' 32 6 = 0#6) ∧
    (if [0x02, 0x30].contains op.toNat then fieldB w = 0#8 ∧ fieldC w = 0#8
      else if op.toNat = 0x03 then fieldC w = 0#8 else True) ∧
    (op.toNat = 0x20 → (fieldNp w).toNat ≤ 2 ∧
      (1 ≤ (fieldNp w).toNat ∨ fieldP0 w = 0#16) ∧ (2 ≤ (fieldNp w).toNat ∨ fieldP1 w = 0#16)) := by
  rw [← h0_mask, ← h1_mask, ← hx_mask, ← bc_mask, ← c_mask, ← p0_mask, ← p1_mask]
  subst hop
  simp only [ReqWord.wellFormed, ReqWord.selectorListed, ReqWord.reservedZero, ReqWord.unusedZero,
    ReqWord.payloadCountLegal, ReqWord.payloadUnusedZero, shift_op, payloadCount_eq, Bool.and_eq_true, Bool.or_eq_true,
    Bool.ite_eq_true_distrib, beq_iff_eq, bne_iff_ne, decide_eq_true_eq]
  tauto

theorem wellFormed_h0 {w : ReqWord} (hop : fieldOp w = 0x01#8 ∨ fieldOp w = 0x10#8 ∨ fieldOp w = 0x11#8) :
    w.wellFormed = true ↔ w.extractLsb' 0 56 = 0#56 := by
  obtain h | h | h := hop <;> simp [wellFormed_iff h]

/-- The operand fields of format H1 that a selector does not use are 0 (R57). -/
def operandsUnused (w : ReqWord) : Prop :=
  (fieldOp w = 0x02#8 ∨ fieldOp w = 0x30#8 → fieldB w = 0#8 ∧ fieldC w = 0#8) ∧ (fieldOp w = 0x03#8 → fieldC w = 0#8)

theorem wellFormed_h1 {w : ReqWord}
    (hop : fieldOp w = 0x02#8 ∨ fieldOp w = 0x03#8 ∨ fieldOp w = 0x04#8 ∨ fieldOp w = 0x30#8) :
    w.wellFormed = true ↔ (w.extractLsb' 32 24 = 0#24 ∧ w.extractLsb' 0 8 = 0#8) ∧ operandsUnused w := by
  obtain h | h | h | h := hop <;> simp [wellFormed_iff h, operandsUnused, h]

/-- What the decoder asks of the fields of an EXEC before it looks CMD up (R96). -/
def execFieldsLegal (w : ReqWord) : Prop :=
  w.extractLsb' 32 6 = 0#6 ∧ fieldNp w ≠ 3#2 ∧
    ¬ ((fieldNp w = 0#2 ∧ fieldP0 w ≠ 0#16) ∨ (fieldNp w ≠ 2#2 ∧ fieldP1 w ≠ 0#16))

theorem wellFormed_hx {w : ReqWord} (hop : fieldOp w = 0x20#8) : w.wellFormed = true ↔ execFieldsLegal w := by
  have hnp : ∀ np : BitVec 2, np = 0#2 ∨ np = 1#2 ∨ np = 2#2 ∨ np = 3#2 := by decide
  obtain h | h | h | h := hnp (fieldNp w) <;> simp [wellFormed_iff hop, execFieldsLegal, h]

theorem selector_of_wellFormed {w : ReqWord} (h : w.wellFormed = true) :
    fieldOp w ∈ [0x01#8, 0x02#8, 0x03#8, 0x04#8, 0x10#8, 0x11#8, 0x20#8, 0x30#8] := by
  obtain ⟨hlisted, -⟩ := (wellFormed_iff rfl).1 h
  simpa [← BitVec.toNat_inj] using hlisted

/-! ## The decoder refuses exactly the ill-formed words -/

theorem decodeH0_malformed_iff {w : ReqWord} {i : Instr} :
    (∃ why, decodeH0 w i = .malformed why) ↔ ¬ w.extractLsb' 0 56 = 0#56 := by
  unfold decodeH0
  split <;> simp_all

theorem decodeH1_malformed_iff {w : ReqWord} {unused : Bool} {i : Instr} : (∃ why, decodeH1 w unused i = .malformed why) ↔
    ¬ ((w.extractLsb' 32 24 = 0#24 ∧ w.extractLsb' 0 8 = 0#8) ∧ unused = true) := by
  unfold decodeH1
  split_ifs <;> simp_all

/-- The command whose opcode and payload count an EXEC word has (R97). -/
def execCommand (w : ReqWord) (c : Command) : Prop := c.descriptor.opcode = fieldCmd w ∧ (fieldNp w).toNat = c.descriptor.ntx

/-- An EXEC with legal fields runs its command, and is invalid when CMDTAB has none (R97). -/
theorem decodeHX_of_legal {w : ReqWord} (h : execFieldsLegal w) :
    (∃ c, execCommand w c ∧ decodeHX w = .instr (execInstr c (fieldP0 w) (fieldP1 w))) ∨
    ((¬ ∃ c, execCommand w c) ∧ decodeHX w = .invalidExec (fieldCmd w) (fieldNp w)) := by
  obtain ⟨hr, hnp, hpay⟩ := h
  rw [decodeHX, if_pos hr, if_neg hnp, if_neg hpay]
  cases hc : Command.ofOpcode (fieldCmd w) with
  | none =>
    refine .inr ⟨fun ⟨c, hcmd, _⟩ => ?_, rfl⟩
    rw [← hcmd, Command.ofOpcode_descriptor] at hc
    cases hc
  | some c =>
    have hcmd := Command.ofOpcode_some hc
    by_cases hn : (fieldNp w).toNat = c.descriptor.ntx
    · exact .inl ⟨c, ⟨hcmd, hn⟩, if_pos hn⟩
    · refine .inr ⟨fun ⟨c', hcmd', hn'⟩ => hn ?_, if_neg hn⟩
      rwa [Command.opcode_injective (hcmd.trans hcmd'.symm)]

theorem decodeHX_malformed_iff {w : ReqWord} : (∃ why, decodeHX w = .malformed why) ↔ ¬ execFieldsLegal w := by
  constructor
  · rintro ⟨why, hd⟩ hlegal
    obtain ⟨c, -, hi⟩ | ⟨-, hi⟩ := decodeHX_of_legal hlegal
    · cases hd.symm.trans hi
    · cases hd.symm.trans hi
  · intro hlegal
    unfold decodeHX
    split_ifs with hr hnp hpay
    · exact ⟨_, rfl⟩
    · exact ⟨_, rfl⟩
    · exact absurd ⟨hr, hnp, hpay⟩ hlegal
    · exact ⟨_, rfl⟩

/-- The masks and the decoder agree (R96). -/
theorem wellFormed_eq_false_iff (w : ReqWord) : w.wellFormed = false ↔ ∃ why, decode w = .malformed why := by
  rw [← Bool.not_eq_true]
  unfold decode
  split_ifs with h01 h02 h03 h04 h10 h11 h20 h30
  · rw [wellFormed_h0 (.inl h01), decodeH0_malformed_iff]
  · rw [wellFormed_h1 (.inl h02), decodeH1_malformed_iff]
    simp [operandsUnused, h02]
  · rw [wellFormed_h1 (.inr (.inl h03)), decodeH1_malformed_iff]
    simp [operandsUnused, h03]
  · rw [wellFormed_h1 (.inr (.inr (.inl h04))), decodeH1_malformed_iff]
    simp [operandsUnused, h04]
  · rw [wellFormed_h0 (.inr (.inl h10)), decodeH0_malformed_iff]
  · rw [wellFormed_h0 (.inr (.inr h11)), decodeH0_malformed_iff]
  · rw [wellFormed_hx h20, decodeHX_malformed_iff]
  · rw [wellFormed_h1 (.inr (.inr (.inr h30))), decodeH1_malformed_iff]
    simp [operandsUnused, h30]
  · refine ⟨fun _ => ⟨_, rfl⟩, fun _ hw => ?_⟩
    have := selector_of_wellFormed hw
    simp_all

/-- Only an EXEC goes to the validation of R97. -/
theorem fieldOp_of_invalidExec {w : ReqWord} {cmd : Word} {np : BitVec 2} (h : decode w = .invalidExec cmd np) :
    fieldOp w = 0x20#8 := by
  -- every other branch answers an instruction or a malformed word
  by_contra hop
  unfold decode decodeH0 decodeH1 at h
  split_ifs at h

theorem decode_exec {w : ReqWord} (hop : fieldOp w = 0x20#8) : decode w = decodeHX w := by simp [decode, hop]

/-- The selector of R57 as the statements write it. -/
theorem shift_eq_exec_iff (w : ReqWord) : w >>> 56 = 0x20 ↔ fieldOp w = 0x20#8 := by
  rw [← BitVec.toNat_inj, ← BitVec.toNat_inj, shift_op]
  rfl

end Sys2Proof

namespace Sys2Proof.Machine
open Sys2Proof.Claims

/-! ## Acceptance -/

/-- Settles O5: the step of an acceptance is the decoded word run on the engine with its port emptied. -/
theorem stepRunsDecodedRequest : Obligations.StepRunsDecodedRequest := fun _ _ _ => step_accepting_instr

theorem step_accepting_malformed {s : State} {w : ReqWord} (h : accepting s w) (hw : w.wellFormed = false) :
    step s = .next { taken s w with trace := .responded ⟨.invalid, 0⟩ :: (taken s w).trace } := by
  obtain ⟨why, hd⟩ := (wellFormed_eq_false_iff w).1 hw
  rw [step_accepting h, hd]
  exact congrArg _ (complete_idle (s := taken s w) h.1 .invalid 0#64)

/-- Settles O6: the masks refuse what the decoder refuses, and the decoder sends only an EXEC to the validation. -/
theorem formatCheckRefusesWithoutEffect : Obligations.FormatCheckRefusesWithoutEffect := by
  refine ⟨wellFormed_eq_false_iff, fun s w => step_accepting_malformed, fun s w h hw => ?_⟩
  cases hd : decode w with
  | instr i => exact .inl ⟨i, rfl, step_accepting_instr h hd⟩
  | malformed why => simp [(wellFormed_eq_false_iff w).2 ⟨why, hd⟩] at hw
  | invalidExec cmd np => exact .inr ⟨(shift_eq_exec_iff w).2 (fieldOp_of_invalidExec hd), cmd, np, rfl⟩

/-! ## The validation of an EXEC -/

/-- The table of R118 lists the opcodes and payload counts of CMDTAB. -/
theorem mem_payloadTable {cmd : Word} {n : Nat} :
    (cmd, n) ∈ payloadTable ↔ ∃ c : Command, c.descriptor.opcode = cmd ∧ n = c.descriptor.ntx := by
  have hall : payloadTable = Command.all.map fun c => (c.descriptor.opcode, c.descriptor.ntx) := rfl
  have hmem : ∀ c : Command, c ∈ Command.all := by intro c; cases c <;> decide
  simp [hall, hmem, eq_comm]

theorem validExec_iff {w : ReqWord} {s : State} : validExec w s ↔ (∃ c, execCommand w c) ∧ s.link = true := by
  rw [validExec, mem_payloadTable, payloadCount_eq]
  rfl

theorem step_accepting_validExec {s : State} {w : ReqWord} (h : accepting s w) (hw : w.wellFormed = true)
    (hop : fieldOp w = 0x20#8) (hv : validExec w s) :
    ∃ c ps, c.descriptor.opcode = cmdOf w ∧ step s = .next (beginExec c ps (taken s w)) := by
  obtain ⟨hc, hl⟩ := validExec_iff.1 hv
  obtain ⟨c, ⟨hcmd, -⟩, hd⟩ | ⟨hnone, -⟩ := decodeHX_of_legal ((wellFormed_hx hop).1 hw)
  · obtain ⟨ps, hps⟩ := execParts_execInstr c (fieldP0 w) (fieldP1 w)
    refine ⟨c, ps, hcmd, ?_⟩
    rw [step_accepting_instr h ((decode_exec hop).trans hd), exec_execParts hps]
    exact startExec_open (s := taken s w) hl c ps
  · exact absurd hc hnone

theorem step_accepting_not_validExec {s : State} {w : ReqWord} (h : accepting s w) (hw : w.wellFormed = true)
    (hop : fieldOp w = 0x20#8) (hv : ¬ validExec w s) : step s = .next (execRefused (taken s w)) := by
  rw [← refuseExec_taken h]
  obtain ⟨c, hc, hd⟩ | ⟨-, hd⟩ := decodeHX_of_legal ((wellFormed_hx hop).1 hw)
  · have hl : s.link = false := Bool.eq_false_iff.2 fun hl => hv (validExec_iff.2 ⟨⟨c, hc⟩, hl⟩)
    obtain ⟨ps, hps⟩ := execParts_execInstr c (fieldP0 w) (fieldP1 w)
    rw [step_accepting_instr h ((decode_exec hop).trans hd), exec_execParts hps]
    exact startExec_closed (s := taken s w) hl c ps
  · rw [step_accepting h, decode_exec hop, hd]
    rfl

/-- Settles O7: a valid EXEC starts its command, and any other is refused. -/
theorem execIsValidatedFirst : Obligations.ExecIsValidatedFirst := by
  intro s w h hw hop
  rw [shift_eq_exec_iff] at hop
  refine ⟨fun hv => ?_, step_accepting_not_validExec h hw hop⟩
  obtain ⟨c, ps, hcmd, hstep⟩ := step_accepting_validExec h hw hop hv
  exact ⟨_, hstep, rfl, hcmd⟩

end Sys2Proof.Machine
end

section
/-!
PROOFS. The start of an EXEC (42_sequencer.md R98 to R100; 43_commands.md R119 to R127): the request frame of each command.
-/
namespace Sys2Proof.Machine
open Sys2Proof.Claims

theorem refuseExec_idle {s : State} (h : s.phase = .idle) : refuseExec s = execRefused s :=
  complete_idle (s := { s with resultValid := false, stPass := false, err := .invalid }) h .invalid 0#64

/-- An EXEC sends its request frame, and RX_LEN is 3 bytes a response word (R70, R99). -/
theorem beginExec_eq_started {c : Command} {ps : List Word} (h : ps.length = c.descriptor.ntx) (s : State) :
    beginExec c ps s = started s c.descriptor.opcode (txLayout (requestFrame c.descriptor.opcode ps))
      (requestFrame c.descriptor.opcode ps) (txLenOf c) (rxLenOf c) := by
  rw [beginExec, txBytes_frameOf h]
  rfl

/-- An EXEC starts on an open link and is refused on a closed one (R98, R99). -/
theorem exec_starts {i : Instr} {c : Command} {ps : List Word} (h : execParts i = some (c, ps)) :
    (∀ s : State, s.link = true → exec i s = .next (started s c.descriptor.opcode
      (txLayout (requestFrame c.descriptor.opcode ps)) (requestFrame c.descriptor.opcode ps) (txLenOf c) (rxLenOf c))) ∧
    (∀ s : State, s.phase = .idle → s.link = false → exec i s = .next (execRefused s)) := by
  refine ⟨fun s hl => ?_, fun s hp hl => ?_⟩
  · rw [exec_execParts h, startExec_open hl, beginExec_eq_started (execParts_length h)]
  · rw [exec_execParts h, startExec_closed hl, refuseExec_idle hp]

/-- The list of the commands without payload is CMDTAB's (R118). -/
theorem bareCommands_execParts {i : Instr} {cmd : Word} {nrx : Nat} (h : (i, cmd, nrx) ∈ bareCommands) :
    ∃ c : Command, execParts i = some (c, []) ∧ c.descriptor.opcode = cmd ∧ c.descriptor.nrx = nrx ∧ txLenOf c = 2 := by
  simp only [bareCommands, List.mem_cons, List.not_mem_nil, or_false, Prod.mk.injEq] at h
  obtain ⟨rfl, rfl, rfl⟩ | ⟨rfl, rfl, rfl⟩ | ⟨rfl, rfl, rfl⟩ | ⟨rfl, rfl, rfl⟩ | ⟨rfl, rfl, rfl⟩ | ⟨rfl, rfl, rfl⟩ |
    ⟨rfl, rfl, rfl⟩ := h <;> exact ⟨_, rfl, rfl, rfl, rfl⟩

/-- Settles O19: the frame of a command without payload is its opcode. -/
theorem bareCommandsStart : Obligations.BareCommandsStart := by
  intro i cmd nrx h
  obtain ⟨c, hi, rfl, rfl, htx⟩ := bareCommands_execParts h
  have hstart := exec_starts hi
  rwa [htx] at hstart

/-- Settles O20: the frame of CMD_SET_BASELINE is its opcode and the groups of P0 and P1. -/
theorem setBaselineStarts : Obligations.SetBaselineStarts := fun p0 p1 => exec_starts (i := .cmdSetBaseline p0 p1) rfl

/-- Settles O21: the frame of CMD_SET_HUMIDITY is its opcode and the group of P0. -/
theorem setHumidityStarts : Obligations.SetHumidityStarts := fun p0 => exec_starts (i := .cmdSetHumidity p0) rfl

end Sys2Proof.Machine
end

section
/-!
PROOFS. REG_READ and the register map (42_sequencer.md R114; 10_state.md R28).
-/
namespace Sys2Proof.Machine
open Sys2Proof.Claims

theorem readReg_rxBuf (s : State) {i : Nat} (hi : i < 9) :
    readReg (BitVec.ofNat 8 (0x10 + i)) s = some ((byteAt s.rxBuf i).zeroExtend 16) := by
  interval_cases i <;> rfl

theorem readReg_txBuf (s : State) {i : Nat} (hi : i < 8) :
    readReg (BitVec.ofNat 8 (0x20 + i)) s = some ((byteAt s.txBuf i).zeroExtend 16) := by
  interval_cases i <;> rfl

/-- A register of the map reads its contents (R28). -/
theorem readReg_of_mem {s : State} {n : Byte} {v : Word} (h : (n, v) ∈ registerMap s) : readReg n s = some v := by
  simp only [registerMap, List.mem_append, List.mem_cons, List.not_mem_nil, or_false, List.mem_map, List.mem_range,
    Prod.mk.injEq] at h
  obtain (h | ⟨i, hi, rfl, rfl⟩) | ⟨i, hi, rfl, rfl⟩ := h
  · obtain ⟨rfl, rfl⟩ | ⟨rfl, rfl⟩ | ⟨rfl, rfl⟩ | ⟨rfl, rfl⟩ | ⟨rfl, rfl⟩ | ⟨rfl, rfl⟩ | ⟨rfl, rfl⟩ := h <;> rfl
  · exact readReg_rxBuf s hi
  · exact readReg_txBuf s hi

/-- The unmapped numbers (R28). -/
theorem readReg_unmapped (s : State) {n : Byte}
    (h : (7 ≤ n.toNat ∧ n.toNat ≤ 0x0F) ∨ (0x19 ≤ n.toNat ∧ n.toNat ≤ 0x1F) ∨ 0x28 ≤ n.toNat) : readReg n s = none := by
  have hne : ∀ k : Byte, k.toNat < 7 → n ≠ k := by
    rintro k hk rfl
    omega
  unfold readReg
  iterate 7 rw [if_neg (hne _ (by decide))]
  rw [if_neg (by omega), if_neg (by omega)]

theorem exec_regRead_some {s : State} {n : Byte} {v : Word} (hp : s.phase = .idle) (h : readReg n s = some v) :
    exec (.regRead n) s = .next { s with trace := .responded ⟨.ok, v.zeroExtend 64⟩ :: s.trace } := by
  rw [exec, execRegRead, h]
  exact congrArg _ (complete_idle hp ..)

theorem exec_regRead_none {s : State} {n : Byte} (hp : s.phase = .idle) (h : readReg n s = none) :
    exec (.regRead n) s = .next { s with trace := .responded ⟨.invalid, 0⟩ :: s.trace } := by
  rw [exec, execRegRead, h]
  exact congrArg _ (complete_idle hp ..)

/-- Settles O53: a mapped number reads its register, and an unmapped one none. -/
theorem regReadReadsMap : Obligations.RegReadReadsMap :=
  fun s _ => ⟨rfl, fun hp => ⟨fun _ hv => exec_regRead_some hp (readReg_of_mem hv),
    fun hn => exec_regRead_none hp (readReg_unmapped s hn)⟩⟩

end Sys2Proof.Machine
end

section
/-!
PROOFS. The phases of an EXEC (42_sequencer.md R101 to R112), one answer of the environment at a time: the count of the
BusWrite, the end of the Wait, and the bytes of the BusRead with their check and decode.
-/
namespace Sys2Proof.Machine
open Sys2Proof.Claims

/-! ## TX: the count of the BusWrite -/

theorem step_writeCount {s : State} {k : Nat} (hp : s.phase = .tx) (hm : nextInput s = .writeCount k) :
    step s = onWriteCount k (dropInput s) := by
  rw [step_environment (by simp [hm]) (.inl (by simp [hp])), hm]
  exact if_pos ((dropInput_phase s).trans hp)

/-- A short write is a transport error: no Wait and no BusRead (R101). -/
theorem step_writeCount_short {s : State} {k : Nat} (hp : s.phase = .tx) (hm : nextInput s = .writeCount k)
    (hk : k < s.txLen.toNat) : step s = .next { dropInput s with
      txCount := BitVec.ofNat 4 k, err := .transport, phase := .idle,
      trace := .responded ⟨.transport, 0⟩ :: .writeAnswered k :: s.trace } := by
  have hcount : writeCountOf k (dropInput s) = k := by simp [writeCountOf, hk.le]
  have hshort : onWriteCount k (dropInput s) = .next (completeError .transport (afterWrite k (dropInput s))) :=
    if_pos (by simpa [hcount] using hk)
  rw [step_writeCount hp hm, hshort, afterWrite, hcount, dropInput_trace]
  rfl

/-- Settles O22: the count of the answer, at most TX_LEN, is short or full. -/
theorem writeCountDecidesWait : Obligations.WriteCountDecidesWait := by
  intro s c k hp hc hm _
  refine ⟨step_writeCount_short hp hm, ?_⟩
  rintro rfl
  exact step_writeCount_full hp hm hc le_rfl

/-! ## WAIT: the end of the Wait -/

theorem step_waitEnd {s : State} (hp : s.phase = .wait) (hm : nextInput s = .waitEnd) :
    step s = onWaitEnd (dropInput s) := by
  rw [step_environment (by simp [hm]) (.inl (by simp [hp])), hm]
  exact if_pos ((dropInput_phase s).trans hp)

/-- The end of the Wait issues the BusRead of a command with a response (R102). -/
theorem step_waitEnd_reads {s : State} (hp : s.phase = .wait) (hm : nextInput s = .waitEnd) (hr : s.rxLen ≠ 0) :
    step s = .next { dropInput s with
      phase := .rx, trace := .readIssued 0x58 s.rxLen.toNat :: .waitEnded :: s.trace } := by
  have hread : onWaitEnd (dropInput s) = .next { dropInput s with
      phase := .rx, trace := .readIssued 0x58 (dropInput s).rxLen.toNat :: .waitEnded :: (dropInput s).trace } :=
    if_neg (by rwa [dropInput_rxLen])
  rw [step_waitEnd hp hm, hread, dropInput_rxLen, dropInput_trace]

/-- Settles O23: RX_LEN is 0 exactly for a command without a response. -/
theorem waitEndReadsOrCompletes : Obligations.WaitEndReadsOrCompletes := by
  refine fun s hp hm => ⟨fun hr => ?_, step_waitEnd_reads hp hm⟩
  rw [step_waitEnd_completes hp hm hr, ← dropInput_err s]
  rfl

/-! ## RX: the bytes of the BusRead -/

theorem step_readBytes {s : State} {bytes : List Byte} (hp : s.phase = .rx) (hm : nextInput s = .readBytes bytes) :
    step s = onReadBytes bytes (dropInput s) := by
  rw [step_environment (by simp [hm]) (.inl (by simp [hp])), hm]
  exact if_pos ((dropInput_phase s).trans hp)

/-- The engine with the bytes of a BusRead of at most RX_LEN recorded (R104). -/
def withBytes (s : State) (bytes : List Byte) : State :=
  { dropInput s with
    rxBuf := received s bytes, rxCount := BitVec.ofNat 4 bytes.length, trace := .readAnswered bytes :: s.trace }

theorem afterRead_dropInput {s : State} {bytes : List Byte} (hb : bytes.length ≤ s.rxLen.toNat) :
    afterRead bytes (dropInput s) = withBytes s bytes := by
  have hgot : readBytesOf bytes (dropInput s) = bytes := by
    rw [readBytesOf, dropInput_rxLen]
    exact List.take_of_length_le hb
  rw [afterRead, hgot, dropInput_rxBuf, dropInput_trace]
  rfl

/-- A short read is a transport error (R104). -/
theorem step_readBytes_short {s : State} {bytes : List Byte} (hp : s.phase = .rx) (hm : nextInput s = .readBytes bytes)
    (hb : bytes.length < s.rxLen.toNat) : step s = .next (completeError .transport (withBytes s bytes)) := by
  have hshort : onReadBytes bytes (dropInput s) = .next (completeError .transport (afterRead bytes (dropInput s))) :=
    if_pos (by simp [readBytesOf, hb])
  rw [step_readBytes hp hm, hshort, afterRead_dropInput hb.le]

/-- A full read is checked (R105). -/
theorem step_readBytes_full {s : State} {c : Command} {bytes : List Byte} (ha : awaitingRead s c)
    (hm : nextInput s = .readBytes bytes) (hb : bytes.length = s.rxLen.toNat) :
    step s = .next (checkResponse c.descriptor (withBytes s bytes)) := by
  obtain ⟨hp, hc, -⟩ := ha
  have hc' : (dropInput s).lastCmd = c.descriptor.opcode := (dropInput_lastCmd s).trans hc
  obtain ⟨t, ht⟩ := onReadBytes_next hc' bytes
  rw [step_readBytes hp hm, ht, ← afterRead_dropInput hb.le]
  obtain ⟨hshort, -⟩ | ⟨-, d, hd, rfl⟩ := onReadBytes_cases ht
  · simp [readBytesOf, hb] at hshort
  · rw [Command.opcode_injective ((Command.ofOpcode_some hd).trans hc')]

theorem withBytes_rxCount {s : State} {bytes : List Byte} (hb : bytes.length = s.rxLen.toNat) :
    (withBytes s bytes).rxCount = s.rxLen := by
  simp [withBytes, hb]

/-- What the check of a response leaves as it was, whatever its verdict (R105 to R112). -/
theorem checkResponse_eq (c : Command) (s : State) : ∃ (e : ErrCode) (d : BitVec 64) (r0 r1 r2 : Word) (p v : Bool),
    checkResponse c.descriptor s = complete e d { afterCheck c.descriptor.nrx s with
      res0 := r0, res1 := r1, res2 := r2, stPass := p, err := e, resultValid := v } := by
  obtain ⟨-, hr⟩ | ⟨-, hr⟩ := checkResponse_cases c.nrx_le s
  · obtain ⟨e, d, r0, r1, r2, p, hdec⟩ := decodeResponse_writes c.descriptor.kind (afterCheck c.descriptor.nrx s)
    exact ⟨e, d, r0, r1, r2, p, true, hr.trans hdec⟩
  · exact ⟨_, _, _, _, _, _, _, hr⟩

/-- Settles O24: a short read records its bytes and fails, a full one records them and is checked in the same step. -/
theorem shortReadKeepsPrefix : Obligations.ShortReadKeepsPrefix := by
  intro s c bytes ha hm
  refine ⟨step_readBytes_short ha.1 hm, fun hb => ?_⟩
  obtain ⟨e, d, r0, r1, r2, p, v, hcheck⟩ := checkResponse_eq c (withBytes s bytes)
  refine ⟨_, ⟨e, d⟩, (step_readBytes_full ha hm hb).trans (congrArg _ hcheck), rfl, rfl, withBytes_rxCount hb, rfl⟩

/-! ## The check of every group -/

/-- The bytes received in full are those that are checked. -/
theorem byteAt_received {s : State} {bytes : List Byte} {j : Nat} (hj : j < bytes.length) (h9 : j < 9) :
    byteAt (received s bytes) j = nth bytes j := by
  rw [show received s bytes = bufWrite bytes s.rxBuf from rfl, byteAt_bufWrite, if_pos h9, nth]
  simp [hj]

theorem groupPasses_received {s : State} {c : Command} {bytes : List Byte} (ha : awaitingRead s c)
    (hb : bytes.length = s.rxLen.toNat) {i : Nat} (hi : i < c.descriptor.nrx) :
    groupPasses (received s bytes) i = passes bytes i := by
  obtain ⟨-, -, hlen⟩ := ha
  have h3 := c.nrx_le
  rw [groupPasses, passes, byteAt_received (by omega) (by omega), byteAt_received (by omega) (by omega),
    byteAt_received (by omega) (by omega)]

/-- The verdicts of a full response are those of its bytes (R105). -/
theorem afterCheck_crcOk {s : State} {c : Command} {bytes : List Byte} (ha : awaitingRead s c)
    (hb : bytes.length = s.rxLen.toNat) {i : Nat} (hi : i < 3) :
    (afterCheck c.descriptor.nrx (withBytes s bytes)).crcOk.getLsbD i =
      if i < c.descriptor.nrx then passes bytes i else s.crcOk.getLsbD i := by
  have hbit : (afterCheck c.descriptor.nrx (withBytes s bytes)).crcOk.getLsbD i =
      crcOkBit (received s bytes) c.descriptor.nrx (dropInput s).crcOk i := crcVerdicts_bit _ _ _ hi
  rw [hbit, crcOkBit, dropInput_crcOk]
  split
  next hlt => exact groupPasses_received ha hb hlt
  next => rfl

/-- Settles O25: whatever the verdict, CRC_OK keeps that of each group. -/
theorem everyGroupIsChecked : Obligations.EveryGroupIsChecked := by
  intro s c bytes ha hm hb
  obtain ⟨e, d, r0, r1, r2, p, v, hcheck⟩ := checkResponse_eq c (withBytes s bytes)
  exact ⟨_, (step_readBytes_full ha hm hb).trans (congrArg _ hcheck), fun i hi => afterCheck_crcOk ha hb hi⟩

/-- One failing group makes the whole response fail (R106). -/
theorem step_readBytes_fails {s : State} {c : Command} {bytes : List Byte} (ha : awaitingRead s c)
    (hm : nextInput s = .readBytes bytes) (hb : bytes.length = s.rxLen.toNat) {i : Nat} (hi : i < c.descriptor.nrx)
    (hfail : passes bytes i = false) :
    step s = .next (completeError .checksum (afterCheck c.descriptor.nrx (withBytes s bytes))) := by
  rw [step_readBytes_full ha hm hb]
  obtain ⟨hpass, -⟩ | ⟨-, hr⟩ := checkResponse_cases c.nrx_le (withBytes s bytes)
  · cases (hpass i hi).symm.trans ((groupPasses_received ha hb hi).trans hfail)
  · rw [hr]

/-- Settles O26: the failed check records the verdicts and ERR, and completes. -/
theorem checksumFailureIsHard : Obligations.ChecksumFailureIsHard := by
  intro s c bytes i ha hm hb hi hfail
  refine ⟨_, fun j hj => afterCheck_crcOk ha hb hj, (step_readBytes_fails ha hm hb hi hfail).trans ?_⟩
  rw [← withBytes_rxCount hb]
  rfl

/-! ## The decode of a response -/

/-- A response all of whose groups pass is decoded (R107 to R111). -/
theorem step_readBytes_decodes {s : State} {c : Command} {bytes : List Byte} (ha : awaitingRead s c)
    (hm : nextInput s = .readBytes bytes) (hb : bytes.length = s.rxLen.toNat)
    (hpass : ∀ i, i < c.descriptor.nrx → passes bytes i = true) :
    step s = .next (decodeResponse c.descriptor.kind (afterCheck c.descriptor.nrx (withBytes s bytes))) := by
  rw [step_readBytes_full ha hm hb]
  obtain ⟨-, hr⟩ | ⟨⟨i, hi, hfail⟩, -⟩ := checkResponse_cases c.nrx_le (withBytes s bytes)
  · rw [hr]
  · cases (hpass i hi).symm.trans ((groupPasses_received ha hb hi).symm.trans hfail)

/-- The verdicts of a response whose groups all pass, with CRC_OK cleared before (R105). -/
theorem crcVerdicts_pass {buf : Vector Byte 9} {nrx : Nat} (hpass : ∀ i, i < nrx → groupPasses buf i = true) :
    crcVerdicts buf nrx 0 = BitVec.ofNat 3 (2 ^ nrx - 1) := by
  refine BitVec.eq_of_getLsbD_eq fun i hi => ?_
  rw [crcVerdicts_bit _ _ _ hi, crcOkBit, BitVec.getLsbD_ofNat, Nat.testBit_two_pow_sub_one]
  split
  next h => simp [hpass i h, h, hi]
  next h => simp [h]

/-- A response to a cleared exchange, all of whose groups pass, is decoded with its bytes and verdicts recorded. -/
theorem step_readBytes_cleared {s : State} {c : Command} {bytes : List Byte} (ha : awaitingRead s c) (hs : cleared s)
    (hm : nextInput s = .readBytes bytes) (hb : bytes.length = s.rxLen.toNat)
    (hpass : ∀ i, i < c.descriptor.nrx → passes bytes i = true) :
    step s = .next (decodeResponse c.descriptor.kind { dropInput s with
      rxBuf := bufWrite bytes #v[0, 0, 0, 0, 0, 0, 0, 0, 0], rxCount := s.rxLen,
      crcOk := BitVec.ofNat 3 (2 ^ c.descriptor.nrx - 1), trace := .readAnswered bytes :: s.trace }) := by
  obtain ⟨hrx, hcrc, -⟩ := hs
  have hbuf : received s bytes = bufWrite bytes #v[0, 0, 0, 0, 0, 0, 0, 0, 0] := by rw [← hrx]; rfl
  have hverdicts : crcVerdicts (received s bytes) c.descriptor.nrx (dropInput s).crcOk =
      BitVec.ofNat 3 (2 ^ c.descriptor.nrx - 1) := by
    rw [dropInput_crcOk, hcrc]
    exact crcVerdicts_pass fun i hi => (groupPasses_received ha hb hi).trans (hpass i hi)
  rw [step_readBytes_decodes ha hm hb hpass, ← withBytes_rxCount hb, ← hbuf, ← hverdicts]
  rfl

theorem decodeResponse_pair {s : State} (herr : s.err = .ok) : decodeResponse .pair s = { s with
    res0 := rxWord s.rxBuf 0, res1 := rxWord s.rxBuf 1, resultValid := true, phase := .idle,
    trace := .responded ⟨.ok, 0#32 ++ rxWord s.rxBuf 0 ++ rxWord s.rxBuf 1⟩ :: s.trace } := by
  rw [← herr]
  rfl

theorem decodeResponse_single {s : State} (herr : s.err = .ok) : decodeResponse .single s = { s with
    res0 := rxWord s.rxBuf 0, resultValid := true, phase := .idle,
    trace := .responded ⟨.ok, (rxWord s.rxBuf 0).zeroExtend 64⟩ :: s.trace } := by
  rw [← herr]
  rfl

theorem decodeResponse_serial48 {s : State} (herr : s.err = .ok) : decodeResponse .serial48 s = { s with
    res0 := rxWord s.rxBuf 0, res1 := rxWord s.rxBuf 1, res2 := rxWord s.rxBuf 2, resultValid := true, phase := .idle,
    trace := .responded ⟨.ok, 0#16 ++ rxWord s.rxBuf 0 ++ rxWord s.rxBuf 1 ++ rxWord s.rxBuf 2⟩ :: s.trace } := by
  rw [← herr]
  rfl

theorem decodeResponse_selfTest_passes {s : State} (herr : s.err = .ok) (h : selfTestPasses s.rxBuf = true) :
    decodeResponse .selfTest s = { s with
      res0 := rxWord s.rxBuf 0, stPass := true, resultValid := true, phase := .idle,
      trace := .responded ⟨.ok, 1⟩ :: s.trace } := by
  rw [← herr, decodeResponse, h]
  rfl

theorem decodeResponse_selfTest_fails {s : State} (h : selfTestPasses s.rxBuf = false) :
    decodeResponse .selfTest s = { s with
      res0 := rxWord s.rxBuf 0, stPass := false, err := .functional, resultValid := true, phase := .idle,
      trace := .responded ⟨.functional, 0⟩ :: s.trace } := by
  rw [decodeResponse, h]
  rfl

theorem dropInput_err_of_cleared {s : State} (h : cleared s) : (dropInput s).err = .ok := by
  obtain ⟨-, -, herr, -⟩ := h
  rw [dropInput_err, herr]

/-- The commands with a two-word response (R118). -/
theorem pairCommand {op : Word} (h : op ∈ [0x2008#16, 0x2050#16, 0x2015#16]) :
    ∃ c : Command, op = c.descriptor.opcode ∧ c.descriptor.nrx = 2 ∧ c.descriptor.kind = .pair := by
  simp only [List.mem_cons, List.not_mem_nil, or_false] at h
  obtain rfl | rfl | rfl := h
  · exact ⟨.measureAirQuality, rfl, rfl, rfl⟩
  · exact ⟨.measureRawSignals, rfl, rfl, rfl⟩
  · exact ⟨.getBaseline, rfl, rfl, rfl⟩

/-- Settles O27: both groups pass, and their words are the result. -/
theorem pairResponseDecodes : Obligations.PairResponseDecodes := by
  intro s h₀ l₀ h₁ l₁ hp hc hr hs hm
  obtain ⟨c, hc, hn, hk⟩ := pairCommand hc
  have hpass : ∀ i, i < c.descriptor.nrx → passes [h₀, l₀, crc8 [h₀, l₀], h₁, l₁, crc8 [h₁, l₁]] i = true := by
    intro i hi
    rw [hn] at hi
    interval_cases i <;> exact beq_self_eq_true _
  rw [step_readBytes_cleared ⟨hp, hc, by rw [hr, hn]; rfl⟩ hs hm (by rw [hr]; rfl) hpass, hn, hk, hr]
  refine congrArg _ (decodeResponse_pair ?_)
  exact dropInput_err_of_cleared hs

theorem passes_oneGroup (h₀ l₀ : Byte) : ∀ i, i < 1 → passes [h₀, l₀, crc8 [h₀, l₀]] i = true := by
  intro i hi
  interval_cases i
  exact beq_self_eq_true _

/-- Settles O28: the group passes, and its word is the result. -/
theorem singleResponseDecodes : Obligations.SingleResponseDecodes := by
  intro s h₀ l₀ hp hc hr hs hm
  rw [step_readBytes_cleared (c := .getFeatureSetVersion) ⟨hp, hc, by rw [hr]; rfl⟩ hs hm (by rw [hr]; rfl)
    (passes_oneGroup h₀ l₀), hr]
  refine congrArg _ (decodeResponse_single ?_)
  exact dropInput_err_of_cleared hs

/-- Settles O29: the three groups pass, and their words are the result. -/
theorem serialResponseDecodes : Obligations.SerialResponseDecodes := by
  intro s h₀ l₀ h₁ l₁ h₂ l₂ hp hc hr hs hm
  have hpass : ∀ i, i < 3 →
      passes [h₀, l₀, crc8 [h₀, l₀], h₁, l₁, crc8 [h₁, l₁], h₂, l₂, crc8 [h₂, l₂]] i = true := by
    intro i hi
    interval_cases i <;> exact beq_self_eq_true _
  rw [step_readBytes_cleared (c := .getSerialId) ⟨hp, hc, by rw [hr]; rfl⟩ hs hm (by rw [hr]; rfl) hpass, hr]
  refine congrArg _ (decodeResponse_serial48 ?_)
  exact dropInput_err_of_cleared hs

/-- Settles O30: the group passes, and the pattern D4 00 decides. -/
theorem selfTestVerdict : Obligations.SelfTestVerdict := by
  intro s h₀ l₀ hp hc hr hs hm
  rw [step_readBytes_cleared (c := .selfTest) ⟨hp, hc, by rw [hr]; rfl⟩ hs hm (by rw [hr]; rfl)
    (passes_oneGroup h₀ l₀), hr]
  refine ⟨?_, fun hne => congrArg _ (decodeResponse_selfTest_fails ?_)⟩
  · rintro ⟨rfl, rfl⟩
    have hcrc : crc8 [0xD4, 0x00] = 0xC6 := by decide +kernel
    rw [hcrc, show (0xD400 : Word) = 0xD4#8 ++ 0x00#8 from rfl]
    refine congrArg _ (decodeResponse_selfTest_passes ?_ ?_)
    · exact dropInput_err_of_cleared hs
    · rfl
  · show (h₀ == 0xD4 && l₀ == 0x00) = false
    simpa using hne

end Sys2Proof.Machine
end

section
/-!
PROOFS. A whole EXEC (42_sequencer.md R116, R117; 60_exceptions.md R141): an EXEC is followed from its acceptance through TX,
WAIT and RX to the response that the whole-EXEC function gives.
-/
namespace Sys2Proof.Machine
open Sys2Proof.Claims

/-! ## The whole-EXEC function, check by check -/

theorem wholeExec_shortWrite {c : Command} {k : Nat} (hk : k < 2 + 3 * c.descriptor.ntx) (bytes : List Byte) :
    wholeExec c k bytes = ⟨.transport, 0⟩ := if_pos hk

theorem wholeExec_noResponse {c : Command} {k : Nat} (hk : ¬ k < 2 + 3 * c.descriptor.ntx) (hn : c.descriptor.nrx = 0)
    (bytes : List Byte) : wholeExec c k bytes = ⟨.ok, 0⟩ := (if_neg hk).trans (if_pos hn)

/-- The response to a read in full whose groups all pass (R107 to R111). -/
def decodedAnswer (kind : DecodeKind) (bytes : List Byte) : Response :=
  match kind with
  | .none     => ⟨.ok, 0⟩
  | .pair     => ⟨.ok, 0#32 ++ word bytes 0 ++ word bytes 1⟩
  | .single   => ⟨.ok, (word bytes 0).zeroExtend 64⟩
  | .serial48 => ⟨.ok, 0#16 ++ word bytes 0 ++ word bytes 1 ++ word bytes 2⟩
  | .selfTest => if nth bytes 0 = 0xD4 ∧ nth bytes 1 = 0x00 then ⟨.ok, 1⟩ else ⟨.functional, 0⟩

section
variable {c : Command} {k : Nat} {bytes : List Byte} (hk : ¬ k < 2 + 3 * c.descriptor.ntx) (hn : c.descriptor.nrx ≠ 0)
include hk hn

theorem wholeExec_shortRead (hb : bytes.length < 3 * c.descriptor.nrx) : wholeExec c k bytes = ⟨.transport, 0⟩ :=
  (if_neg hk).trans ((if_neg hn).trans (if_pos hb))

theorem wholeExec_badGroup (hb : ¬ bytes.length < 3 * c.descriptor.nrx) {i : Nat} (hi : i < c.descriptor.nrx)
    (hfail : passes bytes i = false) : wholeExec c k bytes = ⟨.checksum, 0⟩ := by
  refine (if_neg hk).trans ((if_neg hn).trans ((if_neg hb).trans (if_pos ?_)))
  exact List.all_eq_false.2 ⟨i, List.mem_range.2 hi, by simp [hfail]⟩

theorem wholeExec_decoded (hb : ¬ bytes.length < 3 * c.descriptor.nrx)
    (hpass : ∀ i, i < c.descriptor.nrx → passes bytes i = true) :
    wholeExec c k bytes = decodedAnswer c.descriptor.kind bytes := by
  have hall : ((List.range c.descriptor.nrx).all fun i => passes bytes i) = true :=
    List.all_eq_true.2 fun i hi => hpass i (List.mem_range.1 hi)
  refine (if_neg hk).trans ((if_neg hn).trans ((if_neg hb).trans ((if_neg (by simp [hall])).trans ?_)))
  cases c.descriptor.kind <;> rfl

end

theorem decodedAnswer_err (kind : DecodeKind) (bytes : List Byte) :
    (decodedAnswer kind bytes).err = .ok ∨ (decodedAnswer kind bytes).err = .functional := by
  cases kind with
  | selfTest => unfold decodedAnswer; dsimp only; split <;> simp
  | none | pair | single | serial48 => exact .inl rfl

/-- The decode answers the words received (R107 to R112). -/
theorem decodeResponse_trace {kind : DecodeKind} {s : State} {bytes : List Byte} (herr : s.err = .ok)
    (hbuf : ∀ j, j < 3 * DecodeKind.words kind → byteAt s.rxBuf j = nth bytes j) :
    (decodeResponse kind s).trace = .responded (decodedAnswer kind bytes) :: s.trace := by
  have hword : ∀ i, i < DecodeKind.words kind → rxWord s.rxBuf i = word bytes i := fun i hi => by
    rw [rxWord, word, hbuf _ (by omega), hbuf _ (by omega)]
  cases kind with
  | none => rw [decodedAnswer, ← herr]; rfl
  | pair => rw [decodeResponse_pair herr, hword 0 (by decide), hword 1 (by decide)]; rfl
  | single => rw [decodeResponse_single herr, hword 0 (by decide)]; rfl
  | serial48 => rw [decodeResponse_serial48 herr, hword 0 (by decide), hword 1 (by decide), hword 2 (by decide)]; rfl
  | selfTest =>
    have hpasses : selfTestPasses s.rxBuf = (nth bytes 0 == 0xD4 && nth bytes 1 == 0x00) := by
      rw [selfTestPasses, hbuf 0 (by decide), hbuf 1 (by decide)]
      rfl
    by_cases h : nth bytes 0 = 0xD4 ∧ nth bytes 1 = 0x00
    · rw [decodeResponse_selfTest_passes herr (by simpa [hpasses] using h), decodedAnswer, if_pos h]
    · rw [decodeResponse_selfTest_fails (by simpa [hpasses] using h), decodedAnswer, if_neg h]

/-! ## The bus operations of an EXEC -/

/-- Since the acceptance in `s` there was one BusWrite, and this many BusReads. -/
def BusTraffic (s : State) (reads : Nat) (es : List Event) : Prop :=
  ∃ new, es = new ++ s.trace ∧ writesIn new = 1 ∧ readsIn new = reads

theorem BusTraffic.append {s : State} {n m : Nat} {es : List Event} (h : BusTraffic s n es) (more : List Event)
    (hw : writesIn more = 0) (hr : readsIn more = m) : BusTraffic s (n + m) (more ++ es) := by
  obtain ⟨new, rfl, hnew, rfl⟩ := h
  refine ⟨more ++ new, (List.append_assoc ..).symm, ?_, ?_⟩
  · rw [writesIn, List.countP_append]
    exact congrArg₂ (· + ·) hw hnew
  · rw [readsIn, List.countP_append, ← hr, Nat.add_comm]
    rfl

/-! ## An EXEC on its way -/

/-- `u` comes after the acceptance of an EXEC of `c` in `s`: what no phase changes, and the bus operations so far. -/
structure AfterAcceptance (s : State) (c : Command) (reads : Nat) (u : State) : Prop where
  lastCmd : u.lastCmd = c.descriptor.opcode
  link    : u.link = true
  crc     : u.crc = s.crc
  port    : u.port = none
  traffic : BusTraffic s reads u.trace

/-- The EXEC has no response yet: it has the lengths of `c`, and ERR and RESULT_VALID are still clear (R99). -/
structure InExec (s : State) (c : Command) (reads : Nat) (u : State) : Prop extends AfterAcceptance s c reads u where
  txLen       : u.txLen = txLenOf c
  rxLen       : u.rxLen = rxLenOf c
  err         : u.err = .ok
  resultValid : u.resultValid = false

/-- The EXEC is over with the response `r` (R112, R113, R141). -/
structure Answered (s : State) (c : Command) (reads : Nat) (r : Response) (t : State) : Prop
    extends AfterAcceptance s c reads t where
  phase       : t.phase = .idle
  response    : lastResponse t = some r
  err         : t.err = r.err
  resultValid : t.resultValid = true ↔ r.err = .ok ∨ r.err = .functional

section
variable {s u : State} {c : Command} {n : Nat} (h : InExec s c n u)
include h

theorem InExec.dropInput : InExec s c n (dropInput u) := by
  rw [dropInput_eq]
  exact { h with }

/-- The events of an answer leave the EXEC on its way, with the BusReads they issue. -/
theorem InExec.events (new : List Event) {m : Nat} (hw : writesIn new = 0) (hr : readsIn new = m) :
    InExec s c (n + m) { Machine.dropInput u with trace := new ++ u.trace } :=
  { h.dropInput with traffic := h.traffic.append new hw hr }

/-- A completion ends the EXEC whatever it writes to the result elements (R106, R112, R141). -/
theorem InExec.answered (e : ErrCode) (d : BitVec 64) (r0 r1 r2 : Word) (p : Bool) {v : Bool}
    (hv : v = true ↔ e = .ok ∨ e = .functional) : Answered s c n ⟨e, d⟩ (complete e d
      { u with res0 := r0, res1 := r1, res2 := r2, stPass := p, err := e, resultValid := v }) :=
  { h with
    traffic     := h.traffic.append [_] rfl rfl
    phase       := rfl
    response    := rfl
    err         := rfl
    resultValid := hv }

/-- An error leaves RESULT_VALID clear (R141). -/
theorem InExec.failed {e : ErrCode} (he : e ≠ .ok ∧ e ≠ .functional) : Answered s c n ⟨e, 0⟩ (completeError e u) :=
  h.answered e 0 _ _ _ _ (by simp [h.resultValid, he])

theorem InExec.completed (d : BitVec 64) : Answered s c n ⟨.ok, d⟩ (completeExec d u) := by
  rw [completeExec_eq, h.err]
  exact h.answered .ok d _ _ _ _ (by simp)

theorem InExec.decoded {bytes : List Byte} (hbuf : ∀ j, j < 3 * c.descriptor.nrx → byteAt u.rxBuf j = nth bytes j) :
    Answered s c n (decodedAnswer c.descriptor.kind bytes) (decodeResponse c.descriptor.kind u) := by
  obtain ⟨e, d, r0, r1, r2, p, hdec⟩ := decodeResponse_writes c.descriptor.kind u
  have hanswer : ⟨e, d⟩ = decodedAnswer c.descriptor.kind bytes := by
    have htrace := decodeResponse_trace (kind := c.descriptor.kind) h.err (by rwa [← descriptor_nrx])
    rw [hdec] at htrace
    simpa using htrace
  have hvalid : e = .ok ∨ e = .functional := by
    have := decodedAnswer_err c.descriptor.kind bytes
    rwa [← hanswer] at this
  rw [hdec, ← hanswer]
  exact h.answered e d r0 r1 r2 p (by simp [hvalid])

theorem InExec.txLen_toNat : u.txLen.toNat = 2 + 3 * c.descriptor.ntx := by rw [h.txLen, txLenOf_toNat]

theorem InExec.rxLen_toNat : u.rxLen.toNat = 3 * c.descriptor.nrx := by rw [h.rxLen, rxLenOf_toNat]

/-! ## The answers to an EXEC on its way -/

theorem InExec.writeCount_short {k : Nat} (hp : u.phase = .tx) (hm : nextInput u = .writeCount k)
    (hk : k < 2 + 3 * c.descriptor.ntx) : ∃ t, step u = .next t ∧ Answered s c n ⟨.transport, 0⟩ t := by
  rw [← h.txLen_toNat] at hk
  refine ⟨_, step_writeCount_short hp hm hk, ?_⟩
  exact InExec.failed (u := { Machine.dropInput u with txCount := BitVec.ofNat 4 k, trace := [.writeAnswered k] ++ u.trace })
    { h.events [.writeAnswered k] rfl rfl with } (by decide)

theorem InExec.writeCount_full {k : Nat} (hp : u.phase = .tx) (hm : nextInput u = .writeCount k)
    (hk : ¬ k < 2 + 3 * c.descriptor.ntx) :
    ∃ t, step u = .next t ∧ t.phase = .wait ∧ t.env = u.env.tail ∧ InExec s c n t := by
  rw [← h.txLen_toNat, Nat.not_lt] at hk
  refine ⟨_, step_writeCount_full hp hm h.lastCmd hk, rfl, dropInput_env u, ?_⟩
  exact { h.events [.waitStarted _, .writeAnswered _] rfl rfl with txLen := h.dropInput.txLen }

theorem InExec.waitEnd_completes (hp : u.phase = .wait) (hm : nextInput u = .waitEnd) (hn : c.descriptor.nrx = 0) :
    ∃ t, step u = .next t ∧ Answered s c n ⟨.ok, 0⟩ t := by
  have hr : u.rxLen = 0#4 := BitVec.eq_of_toNat_eq (by rw [h.rxLen_toNat, hn]; rfl)
  exact ⟨_, step_waitEnd_completes hp hm hr, (h.events [.waitEnded] rfl rfl).completed 0⟩

theorem InExec.waitEnd_reads (hp : u.phase = .wait) (hm : nextInput u = .waitEnd) (hn : c.descriptor.nrx ≠ 0) :
    ∃ t, step u = .next t ∧ t.phase = .rx ∧ t.env = u.env.tail ∧ InExec s c (n + 1) t := by
  have hr : u.rxLen ≠ 0 := fun h0 => by
    have := h.rxLen_toNat
    rw [h0] at this
    exact hn (by simpa using this.symm)
  refine ⟨_, step_waitEnd_reads hp hm hr, rfl, dropInput_env u, ?_⟩
  exact { h.events [.readIssued _ _, .waitEnded] rfl rfl with }

theorem InExec.withBytes (bytes : List Byte) : InExec s c n (withBytes u bytes) :=
  { h.events [.readAnswered bytes] rfl rfl with }

theorem InExec.readBytes {k : Nat} {bytes : List Byte} (hp : u.phase = .rx) (hm : nextInput u = .readBytes bytes)
    (hk : ¬ k < 2 + 3 * c.descriptor.ntx) (hn : c.descriptor.nrx ≠ 0) (hb : bytes.length ≤ 3 * c.descriptor.nrx) :
    ∃ t, step u = .next t ∧ Answered s c n (wholeExec c k bytes) t := by
  have hlen := h.rxLen_toNat
  have h3 := c.nrx_le
  have ha : awaitingRead u c := ⟨hp, h.lastCmd, hlen⟩
  have hu : InExec s c n (afterCheck c.descriptor.nrx (Machine.withBytes u bytes)) := { h.withBytes bytes with }
  by_cases hshort : bytes.length < 3 * c.descriptor.nrx
  · rw [wholeExec_shortRead hk hn hshort]
    exact ⟨_, step_readBytes_short hp hm (by omega), (h.withBytes bytes).failed (by decide)⟩
  by_cases hpass : ∀ i, i < c.descriptor.nrx → passes bytes i = true
  · rw [wholeExec_decoded hk hn hshort hpass]
    refine ⟨_, step_readBytes_decodes ha hm (by omega) hpass, ?_⟩
    exact hu.decoded fun j hj => byteAt_received (by omega) (by omega)
  · obtain ⟨i, hi, hfail⟩ : ∃ i, i < c.descriptor.nrx ∧ passes bytes i = false := by simpa using hpass
    rw [wholeExec_badGroup hk hn hshort hi hfail]
    exact ⟨_, step_readBytes_fails ha hm (by omega) hi hfail, hu.failed (by decide)⟩

end

/-! ## The whole EXEC -/

theorem inExec_beginExec {s : State} (hl : s.link = true) (w : ReqWord) (c : Command) (ps : List Word) :
    InExec s c 0 (beginExec c ps (taken s w)) where
  lastCmd     := rfl
  link        := hl
  crc         := rfl
  port        := rfl
  traffic     := ⟨[.writeIssued _ _, .accepted w], rfl, rfl, rfl⟩
  txLen       := rfl
  rxLen       := rfl
  err         := rfl
  resultValid := rfl

/-- An EXEC whose answers are in range is answered as R117 says, in two to four steps, with the bus operations of R116. -/
theorem runsExec_answered {s : State} {w : ReqWord} {c : Command} {p0 p1 : Word} {k : Nat} {bytes : List Byte}
    (h : runsExec s w c p0 p1 k bytes) : ∃ n t, 2 ≤ n ∧ n ≤ 4 ∧ Sys2Proof.core.run n s = .next t ∧
      Answered s c (if k = 2 + 3 * c.descriptor.ntx ∧ 0 < c.descriptor.nrx then 1 else 0) (wholeExec c k bytes) t := by
  obtain ⟨hp, hw, hd, hl, ⟨rest, henv⟩, hk, hb⟩ := h
  obtain ⟨ps, hps⟩ := execParts_execInstr c p0 p1
  have haccept : step s = .next (beginExec c ps (taken s w)) := by
    rw [step_accepting_instr ⟨hp, hw, by simp [nextInput_of_env henv]⟩ hd, exec_execParts hps]
    exact startExec_open (s := taken s w) hl c ps
  have htx := inExec_beginExec hl w c ps
  by_cases hshort : k < 2 + 3 * c.descriptor.ntx
  · obtain ⟨t, hstep, ht⟩ := htx.writeCount_short rfl (nextInput_of_env henv) hshort
    refine ⟨2, t, by decide, by decide, (core_run_next haccept).trans (core_run_next hstep), ?_⟩
    rwa [wholeExec_shortWrite hshort, if_neg (by omega)]
  obtain ⟨u, hwrite, hup, huenv, hu⟩ := htx.writeCount_full rfl (nextInput_of_env henv) hshort
  rw [beginExec_env, show (taken s w).env = s.env from rfl, henv] at huenv
  by_cases hn : c.descriptor.nrx = 0
  · obtain ⟨t, hstep, ht⟩ := hu.waitEnd_completes hup (nextInput_of_env huenv) hn
    refine ⟨3, t, by decide, by decide,
      (core_run_next haccept).trans ((core_run_next hwrite).trans (core_run_next hstep)), ?_⟩
    rwa [wholeExec_noResponse hshort hn, if_neg (by omega)]
  · obtain ⟨v, hread, hvp, hvenv, hv⟩ := hu.waitEnd_reads hup (nextInput_of_env huenv) hn
    rw [huenv] at hvenv
    obtain ⟨t, hstep, ht⟩ := hv.readBytes hvp (nextInput_of_env hvenv) hshort hn hb
    refine ⟨4, t, by decide, by decide, (core_run_next haccept).trans ((core_run_next hwrite).trans
      ((core_run_next hread).trans (core_run_next hstep))), ?_⟩
    rwa [if_pos (by omega)]

/-- Settles O31: the EXEC is answered with the whole-EXEC function's response. -/
theorem wholeExecFollowsSequence : Obligations.WholeExecFollowsSequence := by
  intro s w c p0 p1 k bytes h
  obtain ⟨n, t, h2, h4, hrun, ht⟩ := runsExec_answered h
  exact ⟨n, t, h2, h4, hrun, ht.phase, ht.port, ht.response, ht.err, ht.lastCmd, ht.link, ht.crc, ht.resultValid⟩

/-- Settles O32: a request refused at its acceptance has the one event of its response, and an EXEC has the bus operations that
its phases issue. -/
theorem oneWriteAtMostOneRead : Obligations.OneWriteAtMostOneRead := by
  refine ⟨fun s w ha hrefused => ?_, fun s w c p0 p1 k bytes h => ?_⟩
  · cases hw : w.wellFormed with
    | false => exact ⟨_, step_accepting_malformed ha hw, ha.1, rfl⟩
    | true =>
      obtain hw' | ⟨hop, hv⟩ := hrefused
      · cases hw.symm.trans hw'
      · exact ⟨_, step_accepting_not_validExec ha hw ((shift_eq_exec_iff w).1 hop) hv, ha.1, rfl⟩
  · obtain ⟨n, t, -, h4, hrun, ht⟩ := runsExec_answered h
    obtain ⟨new, htrace, hwrites, hreads⟩ := ht.traffic
    exact ⟨n, t, new, h4, hrun, ht.phase, htrace, hwrites, hreads⟩

end Sys2Proof.Machine
end

section
/-!
PROOFS. What an EXEC does not touch, and how a request ends (42_sequencer.md R113, R115): no answer of the environment reads or
writes CRC, and a step answers at most once, which leaves the engine idle.
-/
namespace Sys2Proof.Machine
open Sys2Proof.Claims

/-! ## CRC is not read -/

/-- The engine with another CRC register. -/
def setCrc (c : Byte) (s : State) : State := { s with crc := c }

/-- The outcome with another CRC register. -/
def outcomeSetCrc (c : Byte) : Result → Result
  | .next s => .next (setCrc c s)
  | .fault r => .fault r
  | .refused r => .refused r

theorem startExec_setCrc (b : Byte) (c : Command) (ps : List Word) (s : State) :
    startExec c ps (setCrc b s) = outcomeSetCrc b (startExec c ps s) := by
  rw [startExec, startExec, apply_ite (outcomeSetCrc b)]
  rfl

theorem onBindAnswer_setCrc (c : Byte) (ok : Bool) (s : State) :
    onBindAnswer ok (setCrc c s) = outcomeSetCrc c (onBindAnswer ok s) := by
  cases ok <;> rfl

theorem startWait_setCrc (c : Byte) (s : State) : startWait (setCrc c s) = outcomeSetCrc c (startWait s) := by
  rw [startWait, startWait, show (setCrc c s).lastCmd = s.lastCmd from rfl]
  cases Command.ofOpcode s.lastCmd <;> rfl

theorem onWriteCount_setCrc (c : Byte) (k : Nat) (s : State) :
    onWriteCount k (setCrc c s) = outcomeSetCrc c (onWriteCount k s) := by
  refine Eq.trans ?_ (apply_ite (outcomeSetCrc c) ..).symm
  rw [← startWait_setCrc]
  rfl

theorem onWaitEnd_setCrc (c : Byte) (s : State) : onWaitEnd (setCrc c s) = outcomeSetCrc c (onWaitEnd s) := by
  rw [onWaitEnd, onWaitEnd, apply_ite (outcomeSetCrc c)]
  rfl

theorem decodeResponse_setCrc (c : Byte) (k : DecodeKind) (s : State) :
    decodeResponse k (setCrc c s) = setCrc c (decodeResponse k s) := by
  cases k <;> rfl

theorem checkResponse_setCrc (c : Byte) (d : Descriptor) (s : State) :
    checkResponse d (setCrc c s) = setCrc c (checkResponse d s) := by
  refine Eq.trans ?_ (apply_ite (setCrc c) ..).symm
  rw [← decodeResponse_setCrc]
  rfl

theorem onReadBytes_setCrc (c : Byte) (bytes : List Byte) (s : State) :
    onReadBytes bytes (setCrc c s) = outcomeSetCrc c (onReadBytes bytes s) := by
  refine Eq.trans ?_ (apply_ite (outcomeSetCrc c) ..).symm
  unfold onReadBytes
  rw [show (setCrc c s).lastCmd = s.lastCmd from rfl]
  cases Command.ofOpcode s.lastCmd with
  | some d => exact if_congr .rfl rfl (congrArg Host.Outcome.next (checkResponse_setCrc c d.descriptor (afterRead bytes s)))
  | none => rfl

theorem offerRequest_setCrc (c : Byte) (w : ReqWord) (s : State) :
    offerRequest w (setCrc c s) = setCrc c (offerRequest w s) := by
  rw [offerRequest, offerRequest, show (setCrc c s).port = s.port from rfl]
  cases s.port <;> rfl

/-- An answer meets the engine in its phase only (log 3). -/
theorem ite_setCrc {c : Byte} {p : Prop} [Decidable p] {r r' : Result} {s : State} (h : r' = outcomeSetCrc c r) :
    (if p then r' else .next (setCrc c s)) = outcomeSetCrc c (if p then r else .next s) := by
  rw [h, apply_ite (outcomeSetCrc c)]
  rfl

/-- No input but reset, which writes CRC, meets the CRC register (R115). -/
theorem environmentStep_setCrc (c : Byte) {m : EnvInput} (hm : m ≠ .reset) (s : State) :
    environmentStep m (setCrc c s) = outcomeSetCrc c (environmentStep m s) := by
  cases m with
  | reset => exact absurd rfl hm
  | silent => rfl
  | offer w => exact congrArg _ (offerRequest_setCrc c w s)
  | bindAnswer ok => exact ite_setCrc (onBindAnswer_setCrc c ok s)
  | writeCount k => exact ite_setCrc (onWriteCount_setCrc c k s)
  | waitEnd => exact ite_setCrc (onWaitEnd_setCrc c s)
  | readBytes bytes => exact ite_setCrc (onReadBytes_setCrc c bytes s)

theorem nextInput_setCrc (c : Byte) (s : State) : nextInput (setCrc c s) = nextInput s := rfl

theorem dropInput_setCrc (c : Byte) (s : State) : dropInput (setCrc c s) = setCrc c (dropInput s) := by
  rw [dropInput, dropInput, show (setCrc c s).env = s.env from rfl]
  cases s.env <;> rfl

/-- The next step is the acceptance of an EXEC, or an answer in one of its phases. -/
def execStep (s : State) : Prop :=
  (∃ w i, accepting s w ∧ decode w = .instr i ∧ isExec i) ∨ (execInProgress s.phase ∧ nextInput s ≠ .reset)

theorem step_setCrc {s : State} (c : Byte) (h : execStep s) : step (setCrc c s) = outcomeSetCrc c (step s) := by
  obtain ⟨w, i, ha, hd, hi⟩ | ⟨hp, hr⟩ := h
  · obtain ⟨d, ps, hi⟩ := exec_isExec hi
    have ha' : accepting (setCrc c s) w := ha
    rw [step_accepting_instr ha hd, step_accepting_instr ha' hd, hi, hi]
    exact startExec_setCrc c d ps (taken s w)
  · have hbusy : s.phase ≠ .idle := fun h => not_execInProgress_idle h hp
    rw [step_environment hr (.inl hbusy), step_environment (s := setCrc c s) hr (.inl hbusy), nextInput_setCrc,
      dropInput_setCrc]
    exact environmentStep_setCrc c hr (dropInput s)

theorem execStep_frame {s t : State} (h : execStep s) (ht : step s = .next t) : t.crc = s.crc ∧ t.link = s.link := by
  obtain ⟨w, i, ha, hd, hi⟩ | ⟨hp, hr⟩ := h
  · obtain ⟨d, ps, hi⟩ := exec_isExec hi
    rw [step_accepting_instr ha hd, hi] at ht
    obtain ⟨-, rfl⟩ | ⟨-, rfl⟩ := startExec_cases ht <;> exact ⟨rfl, rfl⟩
  · rw [step_environment hr (.inl fun h => not_execInProgress_idle h hp)] at ht
    have hcrc := (environmentStep_crc hr ht).trans (dropInput_crc s)
    obtain hlink | ⟨hbind, -⟩ := environmentStep_link hr ht
    · exact ⟨hcrc, hlink.trans (dropInput_link s)⟩
    · rw [dropInput_phase] at hbind
      exact absurd (hbind ▸ hp) not_execInProgress_bind

/-- Settles O42: the start, the refusal and each answer leave CRC and LINK as they were, and do the same with another CRC. -/
theorem execIgnoresCrcRegister : Obligations.ExecIgnoresCrcRegister := by
  intro s t h ht
  obtain ⟨hcrc, hlink⟩ := execStep_frame h ht
  refine ⟨hcrc, hlink, fun c => (step_setCrc c h).trans ?_⟩
  rw [ht]
  rfl

/-! ## How a request ends -/

theorem responsesIn_append (new old : List Event) : responsesIn (new ++ old) = responsesIn new + responsesIn old :=
  List.countP_append

/-- What a step other than reset does to the request in progress: it answers it, with its newest event and in IDLE, or it adds
events that are no response, and then it is in IDLE only when it began there. -/
inductive RequestStep (s t : State) : Prop
  | answers (r : Response) (new : List Event) (hp : t.phase = .idle) (hn : responsesIn new = 0)
      (ht : t.trace = .responded r :: (new ++ s.trace))
  | continues (new : List Event) (hp : t.phase = .idle → s.phase = .idle) (hn : responsesIn new = 0)
      (ht : t.trace = new ++ s.trace)

/-- Events that are no response may go before. -/
theorem RequestStep.after {s u t : State} (h : RequestStep u t) (hp : u.phase = s.phase) (old : List Event)
    (hu : u.trace = old ++ s.trace) (hold : responsesIn old = 0) : RequestStep s t := by
  obtain ⟨r, new, hi, hn, ht⟩ | ⟨new, hi, hn, ht⟩ := h
  · exact .answers r (new ++ old) hi (by rw [responsesIn_append, hn, hold]) (by rw [ht, hu, List.append_assoc])
  · exact .continues (new ++ old) (fun h => hp ▸ hi h) (by rw [responsesIn_append, hn, hold])
      (by rw [ht, hu, List.append_assoc])

theorem exec_requestStep {i : Instr} {s t : State} (h : exec i s = .next t) : RequestStep s t := by
  obtain ⟨c, d, rfl⟩ | ⟨-, -, rfl⟩ | ⟨-, -, rfl⟩ | ⟨-, rfl⟩ | ⟨c, ps, hps, -, rfl⟩ | ⟨c, ps, -, -, rfl⟩ | ⟨n, -, rfl⟩ :=
    exec_cases h
  · exact .answers _ [] rfl rfl rfl
  · exact .answers _ [] rfl rfl rfl
  · exact .continues [_] nofun rfl rfl
  · rw [releaseLink_eq]
    cases s.link
    · exact .answers _ [] rfl rfl rfl
    · exact .answers _ [.released] rfl rfl rfl
  · exact .continues [_] nofun rfl rfl
  · exact .answers _ [] rfl rfl rfl
  · exact .answers _ [] rfl rfl rfl

theorem runDecoded_requestStep {d : Decoded} {s t : State} (h : runDecoded d s = .next t) : RequestStep s t := by
  obtain ⟨i, -, h⟩ | ⟨-, -, rfl⟩ | ⟨-, -, -, rfl⟩ := runDecoded_cases h
  · exact exec_requestStep h
  · exact .answers _ [] rfl rfl rfl
  · exact .answers _ [] rfl rfl rfl

theorem onBindAnswer_requestStep {ok : Bool} {s t : State} (h : onBindAnswer ok s = .next t) : RequestStep s t := by
  obtain ⟨-, rfl⟩ | ⟨-, rfl⟩ := onBindAnswer_cases h <;> exact .answers _ [_] rfl rfl rfl

theorem onWriteCount_requestStep {k : Nat} {s t : State} (h : onWriteCount k s = .next t) : RequestStep s t := by
  obtain ⟨-, rfl⟩ | ⟨-, hw⟩ := onWriteCount_cases h
  · exact .answers _ [_] rfl rfl rfl
  · obtain ⟨c, -, rfl⟩ := startWait_cases hw
    exact .continues [_, _] nofun rfl rfl

theorem onWaitEnd_requestStep {s t : State} (h : onWaitEnd s = .next t) : RequestStep s t := by
  obtain ⟨-, rfl⟩ | ⟨-, rfl⟩ := onWaitEnd_cases h
  · exact .answers _ [_] rfl rfl rfl
  · exact .continues [_, _] nofun rfl rfl

theorem onReadBytes_requestStep {bytes : List Byte} {s t : State} (h : onReadBytes bytes s = .next t) : RequestStep s t := by
  obtain ⟨-, rfl⟩ | ⟨-, c, -, rfl⟩ := onReadBytes_cases h
  · exact .answers _ [_] rfl rfl rfl
  · obtain ⟨e, d, u, hu, htrace⟩ := checkResponse_completes c (afterRead bytes s)
    rw [hu]
    exact .answers ⟨e, d⟩ [.readAnswered _] rfl rfl (congrArg _ htrace)

theorem environmentStep_requestStep {m : EnvInput} {s t : State} (hm : m ≠ .reset) (h : environmentStep m s = .next t) :
    RequestStep s t := by
  obtain rfl | ⟨w, -, -, rfl⟩ | ⟨rfl, -⟩ | ⟨ok, -, -, h⟩ | ⟨k, -, -, h⟩ | ⟨-, -, h⟩ | ⟨bytes, -, -, h⟩ :=
    environmentStep_cases h
  · exact .continues [] id rfl rfl
  · exact .continues [_] id rfl rfl
  · exact absurd rfl hm
  · exact onBindAnswer_requestStep h
  · exact onWriteCount_requestStep h
  · exact onWaitEnd_requestStep h
  · exact onReadBytes_requestStep h

theorem step_requestStep {s t : State} (h : step s = .next t) :
    (t.phase = .idle ∧ t.trace = .resetTaken :: s.trace) ∨ RequestStep s t := by
  obtain ⟨-, hstep⟩ | ⟨-, -, w, -, hstep⟩ | ⟨hr, -, hstep⟩ := step_cases s <;> rw [hstep] at h
  · cases h
    exact .inl ⟨rfl, congrArg _ (dropInput_trace s)⟩
  · exact .inr ((runDecoded_requestStep h).after rfl [.accepted w] rfl rfl)
  · exact .inr ((environmentStep_requestStep hr h).after (dropInput_phase s) [] (dropInput_trace s) rfl)

/-- Events that are no response do not complete a request. -/
theorem not_completesWith {s t : State} {new : List Event} (hn : responsesIn new = 0) (ht : t.trace = new ++ s.trace)
    (r : Response) : ¬ completesWith s t r := by
  rintro ⟨hhead, hlonger⟩
  rw [ht] at hhead hlonger
  cases new with
  | nil => simp at hlonger
  | cons e new =>
    obtain rfl : e = .responded r := by simpa using hhead
    simp [responsesIn] at hn

/-- Settles O47: a reset is no response, an answer is the one response of its step, and nothing else reaches IDLE. -/
theorem completionReturnsToIdle : Obligations.CompletionReturnsToIdle := by
  intro s t h
  obtain ⟨hp, ht⟩ | ⟨r, new, hp, hn, ht⟩ | ⟨new, hp, hn, ht⟩ := step_requestStep h
  · refine ⟨fun _ _ => hp, ?_, fun _ _ => .inl ht⟩
    rw [ht]
    exact Nat.le_succ _
  · refine ⟨fun _ _ => hp, ?_, fun _ _ => .inr ⟨r, by rw [ht]; rfl, by rw [ht]; simp⟩⟩
    rw [ht, ← List.cons_append, responsesIn_append]
    have hone : responsesIn (.responded r :: new) = responsesIn new + 1 := List.countP_cons_of_pos rfl
    omega
  · refine ⟨fun r hr => absurd hr (not_completesWith hn ht r), ?_, fun hs hi => absurd (hp hi) hs⟩
    rw [ht, responsesIn_append]
    omega

end Sys2Proof.Machine
end

section
/-!
PROOFS. CMDTAB (43_commands.md R118) and the humidity word (R128, R129): the bits of a binary64 give a sign and a magnitude, and
what hum_pack computes from them in natural numbers is floor(magnitude * 256), whose two bytes are the two parts of the word.
-/
namespace Sys2Proof.Machine
open Sys2Proof.Claims

/-- Settles O4: each row is read off CMDTAB, and the frame lengths off its word counts. -/
theorem commandTableValues : Obligations.CommandTableValues :=
  ⟨rfl, rfl, rfl, rfl, rfl, rfl, rfl, rfl, rfl, fun c => ⟨txLenOf_toNat c, rxLenOf_toNat c⟩⟩

/-! ## The value of a binary64 -/

theorem binary64_exponentField (h : BitVec 64) : h.toNat / 2 ^ 52 % 2048 = (h.extractLsb' 52 11).toNat := by
  rw [BitVec.extractLsb'_toNat, Nat.shiftRight_eq_div_pow]

theorem binary64_fractionField (h : BitVec 64) : h.toNat % 2 ^ 52 = (h.extractLsb' 0 52).toNat := by
  rw [BitVec.extractLsb'_toNat, Nat.shiftRight_zero]

theorem binary64_signBit (h : BitVec 64) : h.toNat / 2 ^ 63 = 1 ↔ h.msb = true := by
  rw [BitVec.msb_eq_decide, decide_eq_true_iff]
  omega

/-- The absolute value of a finite binary64. -/
def binary64Magnitude (h : BitVec 64) : ℚ := binary64Significand h * 2 ^ binary64Exponent h / 2 ^ 1075

theorem binary64Magnitude_nonneg (h : BitVec 64) : 0 ≤ binary64Magnitude h := by
  unfold binary64Magnitude
  positivity

theorem binary64Magnitude_eq_zero_iff (h : BitVec 64) : binary64Magnitude h = 0 ↔ binary64Significand h = 0 := by
  simp only [binary64Magnitude, div_eq_zero_iff, mul_eq_zero, Nat.cast_eq_zero, pow_eq_zero_iff', OfNat.ofNat_ne_zero,
    false_and, or_false]

/-- A subnormal number has the exponent of the least normal one, and no leading bit. -/
theorem binary64Magnitude_of_subnormal {h : BitVec 64} (he : (h.extractLsb' 52 11).toNat = 0) :
    binary64Magnitude h = (h.extractLsb' 0 52).toNat / 2 ^ 1074 := by
  rw [binary64Magnitude, binary64Significand, binary64Exponent, if_pos he, he, Nat.max_eq_left (by decide),
    pow_one, show 1075 = 1074 + 1 from rfl, pow_succ (2 : ℚ) 1074, mul_div_mul_right _ _ two_ne_zero]

theorem binary64Magnitude_of_normal {h : BitVec 64} (he : (h.extractLsb' 52 11).toNat ≠ 0) :
    binary64Magnitude h =
      (2 ^ 52 + ((h.extractLsb' 0 52).toNat : ℚ)) * 2 ^ (h.extractLsb' 52 11).toNat / 2 ^ 1075 := by
  rw [binary64Magnitude, binary64Significand, binary64Exponent, if_neg he, Nat.max_eq_right (Nat.pos_of_ne_zero he)]
  push_cast
  rfl

/-- A binary64 has no value, or its sign times its magnitude. -/
theorem binary64_eq (h : BitVec 64) :
    binary64 h = if (h.extractLsb' 52 11).toNat = 2047 then none
      else some (if h.msb = true then -binary64Magnitude h else binary64Magnitude h) := by
  have hsign (x : ℚ) : (if h.msb = true then (-1 : ℚ) else 1) * x = if h.msb = true then -x else x := by
    split
    · exact neg_one_mul x
    · exact one_mul x
  simp only [binary64, binary64_exponentField, binary64_fractionField, binary64_signBit]
  split
  · rfl
  split
  next he => rw [mul_div_assoc, hsign, binary64Magnitude_of_subnormal he]
  next he => rw [mul_assoc, mul_div_assoc, hsign, binary64Magnitude_of_normal he]

theorem binary64_eq_some {h : BitVec 64} {q : ℚ} (hv : binary64 h = some q) :
    (h.extractLsb' 52 11).toNat ≠ 2047 ∧ q = if h.msb = true then -binary64Magnitude h else binary64Magnitude h := by
  rw [binary64_eq] at hv
  split at hv
  next => cases hv
  next he => exact ⟨he, (Option.some.inj hv).symm⟩

/-! ## hum_pack by the value -/

/-- Scaling by 256 moves the binary point by eight places: to the right of the significand, or into it. -/
theorem scaledHumidity_eq_floor (h : BitVec 64) : scaledHumidity h = ⌊binary64Magnitude h * 256⌋₊ := by
  have h256 : (256 : ℚ) = 2 ^ 8 := by norm_num
  rw [scaledHumidity, binary64Magnitude, h256, div_mul_eq_mul_div, mul_assoc, ← pow_add]
  split
  next hle =>
    have hpow : binary64Exponent h + 8 = (binary64Exponent h - 1067) + 1075 := by omega
    rw [hpow, pow_add, ← mul_assoc, mul_div_cancel_right₀ _ (by positivity)]
    rw [← Nat.floor_natCast (R := ℚ) (_ * _), Nat.cast_mul, Nat.cast_pow, Nat.cast_ofNat]
  next hgt =>
    have hpow : 1075 = (1067 - binary64Exponent h) + (binary64Exponent h + 8) := by omega
    rw [hpow, pow_add _ (1067 - binary64Exponent h), mul_div_mul_right _ _ (by positivity)]
    rw [← Nat.floor_div_eq_div (K := ℚ), Nat.cast_pow, Nat.cast_ofNat]

theorem humPack_eq_none_of_binary64_none {h : BitVec 64} (hv : binary64 h = none) : humPack h = none := by
  rw [binary64_eq] at hv
  split at hv
  next he => exact if_pos he
  next => cases hv

theorem humPack_eq_none_of_neg {h : BitVec 64} {q : ℚ} (hv : binary64 h = some q) (hq : q < 0) : humPack h = none := by
  have hm := binary64Magnitude_nonneg h
  obtain ⟨he, rfl⟩ := binary64_eq_some hv
  split at hq
  next hs =>
    have hne : binary64Significand h ≠ 0 := fun hz => by
      rw [(binary64Magnitude_eq_zero_iff h).mpr hz] at hq
      simp at hq
    rw [humPack, if_neg he, if_pos ⟨hs, hne⟩]
  next => exact absurd hq hm.not_gt

/-- A value that is not negative is its magnitude: also that of the negative zero (log 13). -/
theorem humPack_of_nonneg {h : BitVec 64} {q : ℚ} (hv : binary64 h = some q) (hq : 0 ≤ q) :
    humPack h = if ⌊q * 256⌋₊ < 65536 then
      some (BitVec.ofNat 8 (⌊q * 256⌋₊ / 256) ++ BitVec.ofNat 8 (⌊q * 256⌋₊ % 256)) else none := by
  have hm := binary64Magnitude_nonneg h
  obtain ⟨he, rfl⟩ := binary64_eq_some hv
  rw [humPack, if_neg he, scaledHumidity_eq_floor]
  split at hq
  next hs =>
    have hz : binary64Magnitude h = 0 := le_antisymm (neg_nonneg.mp hq) hm
    rw [if_neg fun hneg => hneg.2 ((binary64Magnitude_eq_zero_iff h).mp hz), if_pos hs, hz, neg_zero]
  next hs => rw [if_neg fun hneg => hs hneg.1, if_neg hs]

/-! ## The two bytes of floor(q * 256) -/

theorem floor_scaled_lt_iff {q : ℚ} (hq : 0 ≤ q) : ⌊q * 256⌋₊ < 65536 ↔ q < 256 := by
  have h16 : ((65536 : Nat) : ℚ) = 256 * 256 := by norm_num
  rw [Nat.floor_lt (by positivity), h16, mul_lt_mul_iff_left₀ (by norm_num)]

theorem floor_scaled_div (q : ℚ) : ⌊q * 256⌋₊ / 256 = ⌊q⌋₊ := by
  rw [← Nat.floor_div_ofNat, mul_div_cancel_right₀ q (by norm_num)]

theorem floor_scaled_mod (q : ℚ) : ⌊q * 256⌋₊ % 256 = ⌊(q - ⌊q⌋₊) * 256⌋₊ := by
  have hfrac : (q - ⌊q⌋₊) * 256 = q * 256 - (256 * ⌊q⌋₊ : Nat) := by
    push_cast
    ring
  rw [hfrac, Nat.floor_sub_natCast, ← floor_scaled_div q]
  omega

/-- A word is its high and its low byte. -/
theorem ofNat_bytes (n : Nat) : BitVec.ofNat 8 (n / 256) ++ BitVec.ofNat 8 (n % 256) = BitVec.ofNat 16 n := by
  refine BitVec.eq_of_toNat_eq ?_
  rw [BitVec.toNat_append, BitVec.toNat_ofNat, BitVec.toNat_ofNat, BitVec.toNat_ofNat,
    ← Nat.shiftLeft_add_eq_or_of_lt (Nat.mod_lt _ (by decide)), Nat.shiftLeft_eq]
  omega

/-- Settles O56: a value that is not negative has the bytes of its floor(q * 256), when that is a word; a negative value and
no value have none. -/
theorem humPackTruncates : Obligations.HumPackTruncates := by
  intro h
  refine ⟨fun q hv hq hlt => ?_, fun q hv hout => ?_, humPack_eq_none_of_binary64_none⟩
  · have hw := (humPack_of_nonneg hv hq).trans (if_pos ((floor_scaled_lt_iff hq).mpr hlt))
    exact ⟨by rw [hw, floor_scaled_div, floor_scaled_mod], by rw [hw, ofNat_bytes]⟩
  · rcases lt_or_ge q 0 with hneg | hq
    · exact humPack_eq_none_of_neg hv hneg
    · have hge : 256 ≤ q := hout.resolve_left hq.not_gt
      exact (humPack_of_nonneg hv hq).trans (if_neg fun hlt => hge.not_gt ((floor_scaled_lt_iff hq).mp hlt))

end Sys2Proof.Machine
end

section
/-!
PROOFS. The error completions (60_exceptions.md R136 to R139, R142; 70_reset_and_hazards.md R153): what a completed request's code
says of the step that completed it, said once for all codes, and what each error records.
-/
namespace Sys2Proof.Machine
open Sys2Proof.Claims

/-! ## Reset -/

/-- Settles O45: reset goes before every other step, and its values are those of the reset state. -/
theorem resetTakesEffect : Obligations.ResetTakesEffect := by
  intro s h
  rw [step_reset h, takeReset, dropInput_trace]
  rfl

/-! ## The response of a step -/

/-- A step completes with the response that heads the trace of its next state. -/
theorem completesWith_of_step {s t u : State} {r : Response} (new : List Event) (ht : step s = .next t)
    (hu : step s = .next u) (h : u.trace = .responded r :: (new ++ s.trace)) : completesWith s t r := by
  cases ht.symm.trans hu
  refine ⟨by rw [h]; rfl, ?_⟩
  rw [h, List.length_cons, List.length_append]
  omega

theorem err_of_complete_responded {e : ErrCode} {d : BitVec 64} {u : State} {r : Response}
    (h : (complete e d u).trace.head? = some (.responded r)) : r.err = e := by
  cases h
  rfl

/-! ## Registers that do not exist -/

theorem mem_registerMap_of_mapped (s : State) {n : Byte}
    (h : n.toNat < 7 ∨ (0x10 ≤ n.toNat ∧ n.toNat < 0x19) ∨ (0x20 ≤ n.toNat ∧ n.toNat < 0x28)) :
    ∃ v, (n, v) ∈ registerMap s := by
  have hindex (k : Nat) (hk : k ≤ n.toNat) : n = BitVec.ofNat 8 (k + (n.toNat - k)) := by simp [hk]
  simp only [registerMap, List.mem_append, List.mem_map, List.mem_range]
  obtain h | ⟨hlo, hhi⟩ | ⟨hlo, hhi⟩ := h
  · have hseven : ∀ k : Byte, k.toNat < 7 → k = 0 ∨ k = 1 ∨ k = 2 ∨ k = 3 ∨ k = 4 ∨ k = 5 ∨ k = 6 := by decide
    obtain rfl | rfl | rfl | rfl | rfl | rfl | rfl := hseven n h <;> simp [exists_or]
  · exact ⟨_, .inl (.inr ⟨n.toNat - 0x10, by omega, Prod.ext (hindex 0x10 hlo).symm rfl⟩)⟩
  · exact ⟨_, .inr ⟨n.toNat - 0x20, by omega, Prod.ext (hindex 0x20 hlo).symm rfl⟩⟩

/-- The numbers outside the register map are those that read no register (R28). -/
theorem readReg_eq_none_iff {s : State} {n : Byte} : readReg n s = none ↔ ∀ v, (n, v) ∉ registerMap s := by
  constructor
  · intro h v hv
    cases h.symm.trans (readReg_of_mem hv)
  · intro h
    refine readReg_unmapped s ?_
    have hmapped := mt (mem_registerMap_of_mapped s) fun ⟨v, hv⟩ => h v hv
    omega

/-! ## Requests that are refused -/

/-- The cases in which a request is INVALID (R138). -/
def invalidRequest (s : State) (w : ReqWord) : Prop :=
  w.wellFormed = false ∨ (w.wellFormed = true ∧ w >>> 56 = 0x20 ∧ ¬ validExec w s) ∨
  (decode w = .instr .linkOpen ∧ s.link = true) ∨ (∃ n, decode w = .instr (.regRead n) ∧ ∀ v, (n, v) ∉ registerMap s)

theorem wellFormed_of_decode {w : ReqWord} {d : Decoded} (hd : decode w = d) (h : ∀ why, d ≠ .malformed why) :
    w.wellFormed = true := by
  rw [← Bool.not_eq_false, wellFormed_eq_false_iff]
  rintro ⟨why, hw⟩
  exact h why (hd.symm.trans hw)

/-- An EXEC has its own selector (R57). -/
theorem fieldOp_of_isExec {w : ReqWord} {i : Instr} (hd : decode w = .instr i) (hi : isExec i) : fieldOp w = 0x20#8 := by
  obtain ⟨c, p0, p1, rfl⟩ := hi
  rw [← encodeDecodeRoundTrip w _ hd]
  cases c <;> exact (hx_fields ..).1

/-- An instruction that answers at its acceptance answers OK, or is INVALID for one of three reasons. -/
theorem exec_response {i : Instr} {s t : State} {r : Response} (h : exec i s = .next t)
    (hr : t.trace.head? = some (.responded r)) : r.err = .ok ∨ (r.err = .invalid ∧
      ((i = .linkOpen ∧ s.link = true) ∨ (isExec i ∧ s.link = false) ∨ (∃ n, i = .regRead n ∧ readReg n s = none))) := by
  obtain ⟨c, d, rfl⟩ | ⟨hi, hl, rfl⟩ | ⟨-, -, rfl⟩ | ⟨-, rfl⟩ | ⟨c, ps, -, -, rfl⟩ | ⟨c, ps, hi, hl, rfl⟩ | ⟨n, rfl, rfl⟩ :=
    exec_cases h
  · exact .inl (err_of_complete_responded hr)
  · exact .inr ⟨err_of_complete_responded hr, .inl ⟨hi, hl⟩⟩
  · cases hr
  · exact .inl (err_of_complete_responded hr)
  · cases hr
  · exact .inr ⟨err_of_complete_responded hr, .inr (.inl ⟨isExec_of_execParts hi, hl⟩)⟩
  · refine .inr ⟨err_of_complete_responded hr, .inr (.inr ⟨n, rfl, ?_⟩)⟩
    by_contra hsome
    obtain ⟨v, hv⟩ := Option.ne_none_iff_exists'.1 hsome
    rw [exec, execRegRead, hv] at h
    cases h

/-- A request that is answered at its acceptance is answered OK, or INVALID in R138's cases. -/
theorem accepting_response {s t : State} {w : ReqWord} {r : Response} (ha : accepting s w) (ht : step s = .next t)
    (hr : t.trace.head? = some (.responded r)) : r.err = .ok ∨ (r.err = .invalid ∧ invalidRequest s w) := by
  rw [step_accepting ha] at ht
  obtain ⟨i, hd, hi⟩ | ⟨why, hd, rfl⟩ | ⟨cmd, np, hd, rfl⟩ := runDecoded_cases ht
  · obtain hok | ⟨hinv, hcase⟩ := exec_response hi hr
    · exact .inl hok
    refine .inr ⟨hinv, ?_⟩
    obtain ⟨rfl, hl⟩ | ⟨hexec, hl⟩ | ⟨n, rfl, hn⟩ := hcase
    · exact .inr (.inr (.inl ⟨hd, hl⟩))
    · refine .inr (.inl ⟨wellFormed_of_decode hd nofun, (shift_eq_exec_iff w).2 (fieldOp_of_isExec hd hexec), ?_⟩)
      rintro ⟨-, hopen⟩
      cases hl.symm.trans hopen
    · exact .inr (.inr (.inr ⟨n, hd, readReg_eq_none_iff.1 hn⟩))
  · exact .inr ⟨err_of_complete_responded hr, .inl ((wellFormed_eq_false_iff w).2 ⟨why, hd⟩)⟩
  · refine .inr ⟨err_of_complete_responded hr, .inr (.inl ?_)⟩
    have hw := wellFormed_of_decode hd nofun
    have hop := fieldOp_of_invalidExec hd
    refine ⟨hw, (shift_eq_exec_iff w).2 hop, fun hv => ?_⟩
    -- a valid EXEC starts, and its newest event is the BusWrite
    obtain ⟨c, ps, -, hstep⟩ := step_accepting_validExec ha hw hop hv
    rw [step_accepting ha, hd] at hstep
    cases hstep

/-! ## A read in full, of whatever length the answer is -/

theorem EngineInv.exists_awaitingRead {s : State} (h : EngineInv s) (hp : s.phase = .rx) : ∃ c, awaitingRead s c := by
  obtain ⟨-, htx, -⟩ := h.busy (.inr (.inr hp))
  obtain ⟨c, hc⟩ := h.lastCmd_of_execInProgress (.inr (.inr hp))
  exact ⟨c, hp, hc, h.rxLen_toNat htx hc⟩

/-- The first RX_LEN bytes of an answer are received (R90, log 2). -/
def withRead (s : State) (bytes : List Byte) : State := withBytes s (bytes.take s.rxLen.toNat)

theorem readBytesOf_take (bytes : List Byte) (s : State) :
    readBytesOf (bytes.take s.rxLen.toNat) (dropInput s) = readBytesOf bytes (dropInput s) := by
  rw [readBytesOf, readBytesOf, dropInput_rxLen, List.take_take, Nat.min_self]

section
variable {s : State} {c : Command} {bytes : List Byte} (ha : awaitingRead s c) (hm : nextInput s = .readBytes bytes)
  (hb : s.rxLen.toNat ≤ bytes.length)
include ha hb

theorem byteAt_withRead {j : Nat} (hj : j < s.rxLen.toNat) : byteAt (withRead s bytes).rxBuf j = nth bytes j := by
  obtain ⟨-, -, hlen⟩ := ha
  have h3 := c.nrx_le
  have hrec : byteAt (withRead s bytes).rxBuf j = nth (bytes.take s.rxLen.toNat) j :=
    byteAt_received (by rw [List.length_take]; omega) (by omega)
  rw [hrec, nth, nth, List.getElem?_take_of_lt hj]

theorem groupPasses_withRead {i : Nat} (hi : i < c.descriptor.nrx) :
    groupPasses (withRead s bytes).rxBuf i = passes bytes i := by
  obtain ⟨-, -, hlen⟩ := id ha
  rw [groupPasses, passes, byteAt_withRead ha hb (by omega), byteAt_withRead ha hb (by omega),
    byteAt_withRead ha hb (by omega)]

theorem rxWord_withRead {i : Nat} (hi : i < c.descriptor.nrx) : rxWord (withRead s bytes).rxBuf i = word bytes i := by
  obtain ⟨-, -, hlen⟩ := id ha
  rw [rxWord, word, byteAt_withRead ha hb (by omega), byteAt_withRead ha hb (by omega)]

theorem decodeResponse_withRead_trace (herr : s.err = .ok) :
    (decodeResponse c.descriptor.kind (afterCheck c.descriptor.nrx (withRead s bytes))).trace =
      .responded (decodedAnswer c.descriptor.kind bytes) :: (withRead s bytes).trace := by
  obtain ⟨-, -, hlen⟩ := id ha
  refine decodeResponse_trace ((dropInput_err s).trans herr) fun j hj => byteAt_withRead ha hb ?_
  rwa [hlen, descriptor_nrx]

include hm

/-- A full read is decoded when every group passes, and fails otherwise (R104 to R106). -/
theorem step_readBytes_verdict :
    ((∀ i, i < c.descriptor.nrx → passes bytes i = true) ∧
      step s = .next (decodeResponse c.descriptor.kind (afterCheck c.descriptor.nrx (withRead s bytes)))) ∨
    ((∃ i, i < c.descriptor.nrx ∧ passes bytes i = false) ∧
      step s = .next (completeError .checksum (afterCheck c.descriptor.nrx (withRead s bytes)))) := by
  obtain ⟨hp, hc, -⟩ := id ha
  have hread : onReadBytes bytes (dropInput s) = .next (checkResponse c.descriptor (withRead s bytes)) := by
    have hafter : afterRead bytes (dropInput s) = withRead s bytes := by
      rw [withRead, ← afterRead_dropInput (List.length_take_le ..), afterRead, afterRead, readBytesOf_take]
    have hc' : (dropInput s).lastCmd = c.descriptor.opcode := (dropInput_lastCmd s).trans hc
    obtain ⟨t, ht⟩ := onReadBytes_next hc' bytes
    obtain ⟨hshort, -⟩ | ⟨-, d, hd, rfl⟩ := onReadBytes_cases ht
    · simp [readBytesOf, hb.not_gt] at hshort
    · rw [ht, hafter, Command.opcode_injective ((Command.ofOpcode_some hd).trans hc')]
  rw [step_readBytes hp hm, hread]
  obtain ⟨hpass, hr⟩ | ⟨⟨i, hi, hfail⟩, hr⟩ := checkResponse_cases c.nrx_le (withRead s bytes) <;> rw [hr]
  · exact .inl ⟨fun i hi => (groupPasses_withRead ha hb hi).symm.trans (hpass i hi), rfl⟩
  · exact .inr ⟨⟨i, hi, (groupPasses_withRead ha hb hi).symm.trans hfail⟩, rfl⟩

end

/-! ## What a response's code says of the step -/

/-- Why a step answers with a code (R136 to R139). OK needs no error's cause. -/
inductive CodeCause (s : State) : ErrCode → Prop
  | ok : CodeCause s .ok
  | invalid (w : ReqWord) (ha : accepting s w) (hw : invalidRequest s w) : CodeCause s .invalid
  | bindFailed (hp : s.phase = .bind) (hm : nextInput s = .bindAnswer false) : CodeCause s .transport
  | shortWrite (k : Nat) (hp : s.phase = .tx) (hm : nextInput s = .writeCount k) (hk : k < s.txLen.toNat) :
      CodeCause s .transport
  | shortRead (bytes : List Byte) (hp : s.phase = .rx) (hm : nextInput s = .readBytes bytes)
      (hb : bytes.length < s.rxLen.toNat) : CodeCause s .transport
  | badGroup (c : Command) (bytes : List Byte) (ha : awaitingRead s c) (hm : nextInput s = .readBytes bytes)
      (hb : s.rxLen.toNat ≤ bytes.length) (i : Nat) (hi : i < c.descriptor.nrx) (hfail : passes bytes i = false) :
      CodeCause s .checksum
  | wrongPattern (bytes : List Byte) (ha : awaitingRead s .selfTest) (hm : nextInput s = .readBytes bytes)
      (hb : s.rxLen.toNat ≤ bytes.length) (hpass : passes bytes 0 = true) (hword : word bytes 0 ≠ 0xD400) :
      CodeCause s .functional

theorem selfTestPattern_iff (bytes : List Byte) : nth bytes 0 = 0xD4 ∧ nth bytes 1 = 0x00 ↔ word bytes 0 = 0xD400 := by
  constructor
  · rintro ⟨h0, h1⟩
    rw [word, h0, h1]
    rfl
  · exact append_bytes_inj (a' := 0xD4#8) (b' := 0x00#8)

/-- Only the self-test's decode answers an error (R111). -/
theorem decodedAnswer_err_cases (c : Command) (bytes : List Byte) :
    (decodedAnswer c.descriptor.kind bytes).err = .ok ∨
    (c = .selfTest ∧ word bytes 0 ≠ 0xD400 ∧ decodedAnswer c.descriptor.kind bytes = ⟨.functional, 0⟩) := by
  cases c with
  | selfTest =>
    by_cases h : nth bytes 0 = 0xD4 ∧ nth bytes 1 = 0x00
    · exact .inl (congrArg Response.err (if_pos h))
    · exact .inr ⟨rfl, mt (selfTestPattern_iff bytes).2 h, if_neg h⟩
  | _ => exact .inl rfl

theorem readBytes_codeCause {s t : State} {bytes : List Byte} {r : Response} (hs : EngineInv s) (hp : s.phase = .rx)
    (hm : nextInput s = .readBytes bytes) (ht : step s = .next t) (hr : t.trace.head? = some (.responded r)) :
    CodeCause s r.err := by
  by_cases hb : bytes.length < s.rxLen.toNat
  · cases ht.symm.trans (step_readBytes_short hp hm hb)
    rw [err_of_complete_responded hr]
    exact .shortRead bytes hp hm hb
  rw [Nat.not_lt] at hb
  obtain ⟨c, ha⟩ := hs.exists_awaitingRead hp
  obtain ⟨hpass, hstep⟩ | ⟨⟨i, hi, hfail⟩, hstep⟩ := step_readBytes_verdict ha hm hb <;> cases ht.symm.trans hstep
  · obtain ⟨-, -, herr, -⟩ := hs.busy (.inr (.inr hp))
    rw [decodeResponse_withRead_trace ha hb herr] at hr
    obtain rfl : decodedAnswer c.descriptor.kind bytes = r := by simpa using hr
    obtain hok | ⟨rfl, hword, hfun⟩ := decodedAnswer_err_cases c bytes
    · rw [hok]
      exact .ok
    · rw [hfun]
      exact .wrongPattern bytes ha hm hb (hpass 0 (by decide)) hword
  · rw [err_of_complete_responded hr]
    exact .badGroup c bytes ha hm hb i hi hfail

/-- An answer to the operation in progress completes with the code its cause gives it (R85, R101 to R106, R111). -/
theorem environmentStep_codeCause {s t : State} {r : Response} (hs : EngineInv s) (ht : step s = .next t)
    (henv : environmentStep (nextInput s) (dropInput s) = .next t) (hc : completesWith s t r) : CodeCause s r.err := by
  obtain ⟨hr, -⟩ := id hc
  obtain rfl | ⟨w, -, -, rfl⟩ | ⟨-, rfl⟩ | ⟨ok, hm, hp, h⟩ | ⟨k, hm, hp, h⟩ | ⟨-, hp, h⟩ | ⟨bytes, hm, hp, -⟩ :=
    environmentStep_cases henv
  · exact absurd hc (not_completesWith (new := []) rfl (dropInput_trace s) r)
  · cases hr
  · cases hr
  all_goals rw [dropInput_phase] at hp
  · obtain ⟨rfl, rfl⟩ | ⟨rfl, rfl⟩ := onBindAnswer_cases h <;> rw [err_of_complete_responded hr]
    · exact .ok
    · exact .bindFailed hp hm
  · obtain ⟨hk, rfl⟩ | ⟨-, h⟩ := onWriteCount_cases h
    · rw [err_of_complete_responded hr]
      exact .shortWrite k hp hm (by simpa [writeCountOf] using hk)
    · obtain ⟨c, -, rfl⟩ := startWait_cases h
      cases hr
  · obtain ⟨-, rfl⟩ | ⟨-, rfl⟩ := onWaitEnd_cases h
    · obtain ⟨-, -, herr, -⟩ := hs.busy (.inr (.inl hp))
      rw [err_of_complete_responded hr, dropInput_err, herr]
      exact .ok
    · cases hr
  · exact readBytes_codeCause hs hp hm ht hr

/-- The code of a response says what completed the request. -/
theorem codeCause_of_completesWith {s t : State} {r : Response} (hs : EngineInv s) (ht : step s = .next t)
    (hc : completesWith s t r) : CodeCause s r.err := by
  obtain ⟨-, hstep⟩ | ⟨hm, hp, w, hw, -⟩ | ⟨-, -, hstep⟩ := step_cases s
  · cases ht.symm.trans hstep
    cases hc.1
  · obtain hok | ⟨hinv, hcase⟩ := accepting_response ⟨hp, hw, hm⟩ ht hc.1
    · rw [hok]
      exact .ok
    · rw [hinv]
      exact .invalid w ⟨hp, hw, hm⟩ hcase
  · exact environmentStep_codeCause hs ht (hstep.symm.trans ht) hc

/-! ## What each error records -/

theorem step_bindAnswer_fails {s : State} (hp : s.phase = .bind) (hm : nextInput s = .bindAnswer false) :
    step s = .next (completeError .transport { dropInput s with trace := .bindAnswered false :: s.trace }) := by
  rw [step_bindAnswer hp hm, ← dropInput_trace s]
  rfl

/-- Settles O49: each of the three answers completes with TRANSPORT, and no other cause has its code. -/
theorem transportCauses : Obligations.TransportCauses := by
  intro s t hs ht
  have hcause : (∃ d, completesWith s t ⟨.transport, d⟩) →
      (s.phase = .bind ∧ nextInput s = .bindAnswer false) ∨
      (s.phase = .tx ∧ ∃ k, nextInput s = .writeCount k ∧ k < s.txLen.toNat) ∨
      (s.phase = .rx ∧ ∃ bytes, nextInput s = .readBytes bytes ∧ bytes.length < s.rxLen.toNat) := by
    rintro ⟨d, hd⟩
    cases codeCause_of_completesWith hs ht hd with
    | bindFailed hp hm => exact .inl ⟨hp, hm⟩
    | shortWrite k hp hm hk => exact .inr (.inl ⟨hp, k, hm, hk⟩)
    | shortRead bytes hp hm hb => exact .inr (.inr ⟨hp, bytes, hm, hb⟩)
  refine ⟨⟨hcause, ?_⟩, fun hd => ?_⟩
  · rintro (⟨hp, hm⟩ | ⟨hp, k, hm, hk⟩ | ⟨hp, bytes, hm, hb⟩)
    · exact ⟨0, completesWith_of_step [.bindAnswered false] ht (step_bindAnswer_fails hp hm) rfl⟩
    · exact ⟨0, completesWith_of_step [.writeAnswered k] ht (step_writeCount_short hp hm hk) rfl⟩
    · exact ⟨0, completesWith_of_step [.readAnswered bytes] ht (step_readBytes_short hp hm hb) rfl⟩
  · obtain ⟨hp, hm⟩ | ⟨hp, k, hm, hk⟩ | ⟨hp, bytes, hm, hb⟩ := hcause hd
    · cases ht.symm.trans (step_bindAnswer_fails hp hm)
      refine ⟨rfl, fun k hq => ?_, fun bytes hq => ?_⟩ <;> cases hp.symm.trans hq
    · cases ht.symm.trans (step_writeCount_short hp hm hk)
      refine ⟨rfl, fun k' _ hm' => ?_, fun bytes hq => ?_⟩
      · cases hm.symm.trans hm'
        exact (BitVec.toNat_ofNat ..).trans (Nat.mod_eq_of_lt (hk.trans s.txLen.isLt))
      · cases hp.symm.trans hq
    · cases ht.symm.trans (step_readBytes_short hp hm hb)
      refine ⟨rfl, fun k hq => ?_, fun bytes' _ hm' => ?_⟩
      · cases hp.symm.trans hq
      · cases hm.symm.trans hm'
        obtain ⟨c, -, -, hlen⟩ := hs.exists_awaitingRead hp
        have h3 := c.nrx_le
        exact ⟨(BitVec.toNat_ofNat ..).trans (Nat.mod_eq_of_lt (hb.trans s.rxLen.isLt)),
          fun i hi => byteAt_received hi (by omega)⟩

/-- One failing group makes a read in full fail, and the bytes and the verdicts are recorded (R106). -/
theorem step_readBytes_badGroup {s : State} {c : Command} {bytes : List Byte} (ha : awaitingRead s c)
    (hm : nextInput s = .readBytes bytes) (hb : s.rxLen.toNat ≤ bytes.length) {i : Nat} (hi : i < c.descriptor.nrx)
    (hfail : passes bytes i = false) :
    step s = .next (completeError .checksum (afterCheck c.descriptor.nrx (withRead s bytes))) := by
  obtain ⟨hpass, -⟩ | ⟨-, hstep⟩ := step_readBytes_verdict ha hm hb
  · cases (hpass i hi).symm.trans hfail
  · exact hstep

/-- Settles O50: only the check of a read in full fails with CHECKSUM, and it records the bytes and each group's verdict. -/
theorem checksumCauses : Obligations.ChecksumCauses := by
  intro s t hs ht
  refine ⟨⟨?_, ?_⟩, ?_⟩
  · rintro ⟨d, hd⟩
    cases codeCause_of_completesWith hs ht hd with
    | badGroup c bytes ha hm hb i hi hfail =>
      obtain ⟨hp, -, hlen⟩ := ha
      exact ⟨hp, bytes, hm, hb, i, by omega, hfail⟩
  · rintro ⟨hp, bytes, hm, hb, i, hi, hfail⟩
    obtain ⟨c, ha⟩ := hs.exists_awaitingRead hp
    obtain ⟨-, -, hlen⟩ := id ha
    exact ⟨0, completesWith_of_step [.readAnswered _] ht (step_readBytes_badGroup ha hm hb (i := i) (by omega) hfail) rfl⟩
  · rintro bytes ⟨d, hd⟩ hm
    cases codeCause_of_completesWith hs ht hd with
    | badGroup c bytes' ha hm' hb i hi hfail =>
      cases hm.symm.trans hm'
      cases ht.symm.trans (step_readBytes_badGroup ha hm hb hi hfail)
      refine ⟨rfl, fun j hj => byteAt_withRead ha hb hj, fun j hj => ?_⟩
      obtain ⟨-, -, hlen⟩ := id ha
      have hverdict := hs.dropInput.crcVerdicts_bit (by rwa [dropInput_rxLen]) (withRead s bytes).rxBuf hj
      rw [dropInput_rxLen] at hverdict
      refine hverdict.trans (and_congr_right fun hlt => ?_)
      rw [groupPasses_withRead ha hb (by omega)]

theorem EngineInv.awaitingRead_selfTest {s : State} (h : EngineInv s) (hp : s.phase = .rx) (hc : s.lastCmd = 0x2032) :
    Claims.awaitingRead s .selfTest := by
  obtain ⟨c, ha⟩ := h.exists_awaitingRead hp
  obtain ⟨-, hcmd, -⟩ := id ha
  obtain rfl : c = .selfTest := Command.opcode_injective (hcmd.symm.trans hc)
  exact ha

/-- A self-test whose group passes with another word than D400 records that word (R111). -/
theorem step_readBytes_wrongPattern {s : State} {bytes : List Byte} (ha : awaitingRead s .selfTest)
    (hm : nextInput s = .readBytes bytes) (hb : s.rxLen.toNat ≤ bytes.length) (hpass : passes bytes 0 = true)
    (hword : word bytes 0 ≠ 0xD400) : step s = .next { afterCheck 1 (withRead s bytes) with
      res0 := word bytes 0, stPass := false, err := .functional, resultValid := true, phase := .idle,
      trace := .responded ⟨.functional, 0⟩ :: (withRead s bytes).trace } := by
  have hres := rxWord_withRead ha hb (i := 0) (by decide)
  have hpattern : selfTestPasses (withRead s bytes).rxBuf = false := by
    rw [selfTestPasses_eq, hres]
    exact beq_false_of_ne hword
  obtain ⟨-, hstep⟩ | ⟨⟨i, hi, hfail⟩, -⟩ := step_readBytes_verdict ha hm hb
  · rw [hstep, ← hres]
    exact congrArg _ (decodeResponse_selfTest_fails hpattern)
  · obtain rfl : i = 0 := Nat.lt_one_iff.1 hi
    cases hpass.symm.trans hfail

/-- Settles O51: only the self-test's decode answers FUNCTIONAL, on a group that passes with another word than D400. -/
theorem functionalCauses : Obligations.FunctionalCauses := by
  intro s t hs ht
  refine ⟨⟨?_, ?_⟩, ?_⟩
  · rintro ⟨d, hd⟩
    cases codeCause_of_completesWith hs ht hd with
    | wrongPattern bytes ha hm hb hpass hword =>
      obtain ⟨hp, hc, hlen⟩ := ha
      exact ⟨hp, hc, bytes, hm, hlen.symm.trans_le hb, hpass, hword⟩
  · rintro ⟨hp, hc, bytes, hm, hb, hpass, hword⟩
    have ha := hs.awaitingRead_selfTest hp hc
    obtain ⟨-, -, hlen⟩ := id ha
    exact ⟨0, completesWith_of_step [.readAnswered _] ht
      (step_readBytes_wrongPattern ha hm (hlen.trans_le hb) hpass hword) rfl⟩
  · rintro bytes ⟨d, hd⟩ hm
    cases codeCause_of_completesWith hs ht hd with
    | wrongPattern bytes' ha hm' hb hpass hword =>
      cases hm.symm.trans hm'
      cases ht.symm.trans (step_readBytes_wrongPattern ha hm hb hpass hword)
      exact ⟨rfl, rfl, rfl, rfl⟩

/-! ## INVALID -/

/-- A request in one of R138's cases completes with INVALID at its acceptance, whatever it records. -/
theorem step_invalidRequest {s : State} {w : ReqWord} (ha : accepting s w) (h : invalidRequest s w) :
    ∃ t, step s = .next t ∧ t.trace = .responded ⟨.invalid, 0⟩ :: .accepted w :: s.trace := by
  obtain hw | ⟨hw, hop, hv⟩ | ⟨hd, hl⟩ | ⟨n, hd, hn⟩ := h
  · exact ⟨_, step_accepting_malformed ha hw, rfl⟩
  · exact ⟨_, step_accepting_not_validExec ha hw ((shift_eq_exec_iff w).1 hop) hv, rfl⟩
  · exact ⟨_, (step_accepting_instr ha hd).trans (exec_linkOpen_open (s := taken s w) hl), rfl⟩
  · refine ⟨_, (step_accepting_instr ha hd).trans (exec_regRead_none (s := taken s w) ha.1 ?_), rfl⟩
    exact readReg_eq_none_iff.2 hn

/-- Settles O52: each of the four cases completes with INVALID at the acceptance, and an acceptance completes so in no other. -/
theorem invalidCauses : Obligations.InvalidCauses := by
  intro s t hs ht
  refine ⟨⟨?_, ?_⟩, ?_⟩
  · rintro ⟨d, hd⟩
    cases codeCause_of_completesWith hs ht hd with
    | invalid w ha hw => exact ⟨w, ha, hw⟩
  · rintro ⟨w, ha, hw⟩
    obtain ⟨u, hstep, htrace⟩ := step_invalidRequest ha hw
    exact ⟨0, completesWith_of_step [.accepted w] ht hstep htrace⟩
  · rintro w ha ⟨d, hanswer, -⟩
    refine ⟨fun ⟨hw, hop⟩ => ?_, fun hlink => ?_, ?_⟩
    · rw [shift_eq_exec_iff] at hop
      by_cases hv : validExec w s
      · obtain ⟨c, ps, -, hstep⟩ := step_accepting_validExec ha hw hop hv
        cases ht.symm.trans hstep
        cases hanswer
      · cases ht.symm.trans (step_accepting_not_validExec ha hw hop hv)
        exact ⟨rfl, rfl⟩
    · have hstep := step_accepting_instr ha hlink
      cases hl : (taken s w).link
      · cases ht.symm.trans (hstep.trans (exec_linkOpen_closed hl))
        cases hanswer
      · cases ht.symm.trans (hstep.trans (exec_linkOpen_open hl))
        rfl
    · rintro (hw | ⟨n, hread⟩)
      · cases ht.symm.trans (step_accepting_malformed ha hw)
        rfl
      · obtain ⟨r, hexec⟩ := exec_regRead n (taken s w)
        rw [complete_idle (s := taken s w) ha.1] at hexec
        cases ht.symm.trans ((step_accepting_instr ha hread).trans hexec)
        rfl

end Sys2Proof.Machine
end

section
/-!
PROOFS. The request words of the test vectors (95_test_vectors.md 2.2): a word stands for an instruction exactly when it is the
instruction's encoding, so an accepted word is checked by encoding, and a refused one by the clause of R96 or R97 it breaks.
-/
namespace Sys2Proof

/-- The two round trips as one: the words the decoder accepts are the encodings (R55 to R57, R71). -/
theorem decode_eq_instr_iff {w : ReqWord} {i : Instr} : decode w = .instr i ↔ encode i = w :=
  ⟨encodeDecodeRoundTrip w i, fun h => h ▸ decodeEncodeRoundTrip i⟩

/-- Settles O3: the eight accepted words are encodings. Of the two malformed words, one has a reserved bit set and one has NP = 3.
The last two pass the format check, but CMDTAB has no row for the first one's CMD and another NP for the second one's. -/
theorem specWordsDecode : Obligations.SpecWordsDecode := by
  refine ⟨?crcInit, ?crcUpdate, ?crcVerify, ?linkOpen, ?setBaseline, ?setHumidity, ?getSerialId, ?regRead,
    ⟨.reservedField, ?reservedBit⟩, ⟨.payloadCountReserved, ?npThree⟩, ?unknownCmd, ?wrongNp⟩
  case crcInit | crcUpdate | crcVerify | linkOpen | setBaseline | setHumidity | getSerialId | regRead =>
    exact decode_eq_instr_iff.2 (by decide)
  case reservedBit | npThree | unknownCmd | wrongNp => decide

end Sys2Proof
end
